-- ==== Sys2Proof/Word.lean ====
section
/-!
DEFINITION. The word types of the framer: raw and wire bytes, nibbles, millisecond counts (00_scope.md R8 to R10).
-/

namespace Sys2Proof

/-- A raw byte, a wire byte or an 8-bit register (R8, `LEN_W = 8`). -/
abbrev Byte := BitVec 8

/-- A nibble: half of a byte (R8). -/
abbrev Nibble := BitVec 4

/-- `TIME_W`, the width of the clock and of the timeout registers. The spec leaves it OPEN with default 32
(R9, 92_eei_decisions.md D6). DESIGN CHOICE 32: log entry 1. -/
abbrev timeW : Nat := 32

/-- A value of the millisecond clock, `TIME_W` bits (10_state.md R40). -/
abbrev Time := BitVec timeW

end Sys2Proof
end

