-- ==== Sys2Proof/Config.lean ====
section
/-!
DEFINITION. The parameters of 00_scope.md R7 to R9 as named constants, and the free values for what the spec leaves
unspecified (93_implementation_defined.md U10).
-/

namespace Sys2Proof

/-- Start marker (R7). -/
def Config.stx : Byte := 0x02

/-- End marker (R7). -/
def Config.etx : Byte := 0x03

/-- The checksum's fixed polynomial constant (R7). -/
def Config.poly : Byte := 0x8C

/-- The accumulator value before the first byte (R9, R120). -/
def Config.crcInit : Byte := 0x00

/-- The mask whose exclusive-or complements a nibble (R7). -/
def Config.nibbleMask : Nibble := 0xF

/-- The longest payload (R8). -/
def Config.maxLen : Nat := 255

/-- A byte the spec leaves open; the argument numbers the draw (U10). DESIGN CHOICE: log entries 3 and 19. -/
opaque Config.freeByte : Nat → Byte

/-- A flag the spec leaves unspecified; the argument numbers the draw (U10). DESIGN CHOICE: log entry 3. -/
opaque Config.freeBit : Nat → Bool

/-- A time register the spec leaves unspecified; the argument numbers the draw (U10). DESIGN CHOICE: log entry 3. -/
opaque Config.freeTime : Nat → Time

/-- One of six codes (a sender phase, a cause) the spec leaves open; the argument numbers the draw (U10).
DESIGN CHOICE: log entries 3 and 19. -/
opaque Config.freeCode : Nat → Fin 6

end Sys2Proof
end

