-- ==== Sys2Proof/Machine/Checksum.lean ====
section
/-!
DEFINITION. The checksum unit CRC8 (40_checksum.md): pure functions of an 8-bit accumulator and its input.
-/

namespace Sys2Proof.Machine

/-- CRC.BIT (R121): `mix` is taken before the logical shift, the exclusive-or comes after it. -/
def crcBit (acc : Byte) (bit : Bool) : Byte :=
  if (acc.getLsbD 0 ^^ bit) then (acc >>> 1) ^^^ Config.poly else acc >>> 1

/-- CRC.BYTE (R122): bit 0 of `d` first, bit 7 last (90_conflicts.md C1). -/
def crcByte (acc d : Byte) : Byte :=
  [0, 1, 2, 3, 4, 5, 6, 7].foldl (fun a i => crcBit a (d.getLsbD i)) acc

/-- CRC.SEQ (R123): the checksum of a byte sequence, in ascending index order. -/
def crcSeq (p : List Byte) : Byte :=
  p.foldl crcByte Config.crcInit

end Sys2Proof.Machine
end

