-- ==== Sys2Proof/Syntax.lean ====
section
/-!
DEFINITION. The operations of the framer, one constructor of `Instr` for each row of spec/opcode_table.json
(00_scope.md R6, 30_encoding.md R106), and the bit patterns that select some of them.
-/

namespace Sys2Proof

/-- The cause of a command's end (30_encoding.md R102); codes 6 and 7 are never written. -/
inductive Cause where
  | none
  | timeout
  | corrupt
  | overflow
  | checksum
  | transport
  deriving DecidableEq, Repr

/-- The four classes of wire bytes (30_encoding.md R91). -/
inductive WireClass where
  | stx
  | etx
  | nib (n : Nibble)
  | bad
  deriving DecidableEq, Repr

/-- The operations, in the order of opcode_table.json. Operands are those the rule of the row names. -/
inductive Instr where
  -- W8: one wire byte, as the receiver reads it
  | stx
  | etx
  | nib0
  | nib1
  | nib2
  | nib3
  | nib4
  | nib5
  | nib6
  | nib7
  | nib8
  | nib9
  | nibA
  | nibB
  | nibC
  | nibD
  | nibE
  | nibF
  | bad (w : Byte)
  -- layouts of several wire bytes
  | pair (b : Byte)
  | frame (p : List Byte)
  -- host commands
  | send (len : Byte)
  | recv (max : Byte) (timeout : Time)
  -- primitive operations of the checksum unit and of the codec
  | crcInit
  | crcBit (acc : Byte) (bit : Bool)
  | crcByte (acc d : Byte)
  | crcSeq (p : List Byte)
  | encNib (n : Nibble)
  | encByte (b : Byte)
  | decValid (w : Byte)
  | decNib (w : Byte)
  | decPair (w1 w2 : Byte)
  -- the two exits of a command
  | raise (c : Cause)
  | complete (ok : Bool) (len : Byte)
  -- sender steps
  | txStep
  | txStx
  | txHi
  | txLo
  | txEtx
  | txChi
  | txClo
  | txFail
  | txDone
  -- receiver steps
  | rxPoll
  | rxSkip (w : Byte)
  | rxWait (now : Time)
  | rxTimeout (now : Time)
  | rxStx (now : Time)
  | rxEtx
  | rxNibhi (n : Nibble)
  | rxNiblo (n : Nibble)
  | rxPay
  | rxOvf
  | rxChk
  | rxBad (w : Byte)
  deriving DecidableEq, Repr

/-- The bit patterns of the table's formats W8, PAIR, FRAME and CMD (30_encoding.md R106). Rows of format OP and STEP
have none: nothing selects them by bits. -/
inductive PortWord where
  /-- Format W8: one wire byte, read from RXS. -/
  | wire (w : Byte)
  /-- Format PAIR: two wire bytes, in wire order. -/
  | pair (w1 w2 : Byte)
  /-- Format FRAME: the wire bytes of a frame, in wire order. -/
  | frame (ws : List Byte)
  /-- Format CMD: the command port's `cmd_op`, `cmd_len` and `cmd_timeout` (10_state.md R36). -/
  | command (op : BitVec 1) (len : Byte) (timeout : Time)
  deriving DecidableEq, Repr

/-- Why a bit pattern is no instruction. A single wire byte and a command never are rejected. -/
inductive DecodeError where
  /-- A wire byte of a pair is no nibble code (41_codec.md R144: `fail`). -/
  | badCode
  /-- A frame does not begin with the start marker. -/
  | noStart
  /-- A frame ends before its end marker, or a marker stands off the pair boundary. -/
  | noEnd
  /-- A frame's end marker is not followed by exactly one pair. -/
  | badTail
  /-- A frame's last pair is not the checksum of its payload. -/
  | badChecksum
  /-- A frame's payload is longer than 255 bytes. -/
  | tooLong
  deriving DecidableEq, Repr

end Sys2Proof
end

