-- ==== Sys2Proof/Machine/Operands.lean ====
section
/-!
DEFINITION. Every operand form: nibbles of a byte, the codec CODEC (41_codec.md), the classification of wire bytes,
the pair and the frame (30_encoding.md), the elapsed time, and the numeric codes of causes (R102).
-/

namespace Sys2Proof.Machine

/-- `hi4(b) = b[7:4]` (00_scope.md R10). -/
def hi4 (b : Byte) : Nibble := b.extractLsb' 4 4

/-- `lo4(b) = b[3:0]` (00_scope.md R10). -/
def lo4 (b : Byte) : Nibble := b.extractLsb' 0 4

/-- `(zext_8(n1) << 4) | zext_8(n2)`: the byte of two nibbles, high nibble first (R96, R144). -/
def joinNibbles (n1 n2 : Nibble) : Byte := (n1.setWidth 8 <<< 4) ||| n2.setWidth 8

/-- ENC.NIB (R140): the nibble in bits 7:4, its complement in bits 3:0. -/
def encNib (n : Nibble) : Byte := (n.setWidth 8 <<< 4) ||| (n ^^^ Config.nibbleMask).setWidth 8

/-- ENC.BYTE (R141): the pair of a raw byte, first wire byte first. -/
def encByte (b : Byte) : Byte × Byte := (encNib (hi4 b), encNib (lo4 b))

/-- The two wire bytes of a raw byte as a sequence (R96). -/
def pairBytes (b : Byte) : List Byte := [(encByte b).1, (encByte b).2]

/-- DEC.VALID (R142). -/
def decValid (w : Byte) : Bool := hi4 w == (lo4 w ^^^ Config.nibbleMask)

/-- DEC.NIB (R143): `ok(w[7:4])` or `fail`. -/
def decNib (w : Byte) : Option Nibble := if decValid w then some (hi4 w) else none

/-- DEC.PAIR (R144): `w2` is not examined when `w1` fails. -/
def decPair (w1 w2 : Byte) : Option Byte :=
  match decNib w1 with
  | none => none
  | some n1 =>
    match decNib w2 with
    | none => none
    | some n2 => some (joinNibbles n1 n2)

/-- The classification of a wire byte, tested in the order of R91. -/
def classify (w : Byte) : WireClass :=
  if w = Config.stx then .stx
  else if w = Config.etx then .etx
  else
    match decNib w with
    | some n => .nib n
    | none => .bad

/-- The wire bytes of a payload, between the markers (R97). -/
def payloadBytes (p : List Byte) : List Byte := p.flatMap pairBytes

/-- The layout of R97: start marker, pairs of the payload `p`, end marker, pair of the checksum byte `c`. -/
def frameWith (c : Byte) (p : List Byte) : List Byte :=
  [Config.stx] ++ payloadBytes p ++ [Config.etx] ++ pairBytes c

/-- `FRAME(p)` (R97): the layout with the payload's own checksum. -/
def frameBytes (p : List Byte) : List Byte := frameWith (crcSeq p) p

/-- `(now - t0) mod 2^TIME_W` (43_frame_receiver.md R219): the time since the last deadline reset. -/
def elapsed (now t0 : Time) : Time := now - t0

/-- The deadline has passed: the elapsed time exceeds the timeout, strictly, unsigned (R204, D7). -/
def deadlinePassed (now t0 timeout : Time) : Bool := timeout < elapsed now t0

/-- The cause code of `res_cause` (R102, R250). -/
def causeCode : Cause → BitVec 3
  | .none => 0
  | .timeout => 1
  | .corrupt => 2
  | .overflow => 3
  | .checksum => 4
  | .transport => 5

end Sys2Proof.Machine
end

