-- ==== Sys2Proof/Machine/State.lean ====
section
/-!
DEFINITION. The state of the framer as plain data: the registers of 10_state.md R20, the two host memories, the
environment of R41, and two fields of the model's own; the reasons a step can stop; the state after reset (R45).
-/

namespace Sys2Proof.Machine

/-- Which command is running (10_state.md R21); the code 3 is never written. -/
inductive Mode where
  | idle
  | send
  | recv
  deriving DecidableEq, Repr

/-- The next wire byte the sender will offer (R23); codes 6 and 7 are never written. -/
inductive TxPhase where
  | stx
  | hi
  | lo
  | etx
  | chi
  | clo
  deriving DecidableEq, Repr

/-- Which half of a pair the next nibble code carries (R30). -/
inductive NibPhase where
  | hi
  | lo
  deriving DecidableEq, Repr

/-- The sender's registers (R23 to R27). -/
structure TxRegs where
  phase : TxPhase
  idx : Byte
  len : Byte
  cur : Byte
  acc : Byte
  deriving DecidableEq, Repr

/-- The receiver's registers (R28 to R35). -/
structure RxRegs where
  haveStx : Bool
  haveEtx : Bool
  phase : NibPhase
  pos : Byte
  cur : Byte
  acc : Byte
  t0 : Time
  maxlen : Byte
  timeout : Time
  deriving DecidableEq, Repr

/-- A byte space of the host, PAY or OUT (20_memory.md R60): the listed cells in ascending order of address; an
unlisted address reads as `Memory.default` (Machine/Ops.lean). -/
abbrev Memory := List Host.Cell

/-- One byte offered to `TxWrite`, with the transport's answer (R39, 20_memory.md R64). -/
structure Offer where
  byte : Byte
  answer : Nat
  deriving DecidableEq, Repr

/-- What the host does next, while the block is idle (60_exceptions.md R268). -/
inductive HostAct where
  /-- It presents a command at the command port (10_state.md R36). -/
  | command (op : BitVec 1) (len : Byte) (timeout : Time)
  /-- It writes a byte of PAY (70_reset_and_hazards.md R303). -/
  | writePay (a v : Byte)
  /-- It writes a byte of OUT, its own buffer between commands (20_memory.md R62). -/
  | writeOut (a v : Byte)
  /-- It asserts reset (70_reset_and_hazards.md R300). -/
  | reset
  deriving DecidableEq, Repr

/-- The environment the block sees through its ports (10_state.md R36 to R41). The lists of answers are what the
transport and the clock will answer, in order: free inputs of the steps. -/
structure Env where
  /-- TXS: what was offered, oldest first. -/
  txs : List Offer
  /-- The answers `TxWrite` will give. -/
  txAnswers : List Nat
  /-- The answers `RxAvail` will give. -/
  rxAvail : List Nat
  /-- RXS: the bytes `RxRead` will give. -/
  rxBytes : List Byte
  /-- True milliseconds at the latest sample of the clock. -/
  clock : Nat
  /-- Milliseconds that pass before each further sample of the clock. -/
  ticks : List Nat
  /-- What the host does next. -/
  host : List HostAct
  deriving DecidableEq, Repr

/-- The value the last executed primitive operation answered (the outputs of the stateless units, 10_state.md R20). -/
inductive UnitOut where
  | none
  | byte (v : Byte)
  | bit (v : Bool)
  | pair (first second : Byte)
  | nibbleResult (r : Option Nibble)
  | byteResult (r : Option Byte)
  deriving DecidableEq, Repr

/-- The whole state. -/
structure State where
  mode : Mode
  resOk : Bool
  resLen : Byte
  resCause : Cause
  tx : TxRegs
  rx : RxRegs
  pay : Memory
  out : Memory
  env : Env
  /-- The MODEL's own: the last primitive's answer; no rule reads it. Log entry 8. -/
  unitOut : UnitOut
  /-- The MODEL's own: how many free values were drawn. Log entry 3. -/
  freeDraws : Nat
  deriving DecidableEq, Repr

/-- Why the machine takes no further step: an external device never answers (93_implementation_defined.md U8, treatment
`stuck`). -/
inductive Fault where
  /-- Raised by a sender step when the transport never answers `TxWrite`. Safe: the spec has no step here either. -/
  | txWriteNoAnswer
  /-- Raised by a receiver step when the transport never answers `RxAvail`. Safe: as above. -/
  | rxAvailNoAnswer
  /-- Raised by a receiver step when the transport never answers `RxRead`. Safe: as above. -/
  | rxReadNoAnswer
  /-- Raised by a receiver step or by the acceptance of RECV when the clock never answers `Now`. Safe: as above. -/
  | clockNoAnswer
  deriving DecidableEq, Repr

/-- Why an instruction has no meaning in a state. -/
inductive Refusal where
  /-- Raised by an arm of `exec` whose instruction has no meaning yet. Safe. No arm answers so. -/
  | notModelled (mnemonic : String)
  /-- Raised by a STEP row, `raise` or `complete` run in a state in which its rule does not select it: no rule of
  42_frame_sender.md or 43_frame_receiver.md has that state as precondition, and `step` never runs it so. Safe. Log
  entries 10 and 20. -/
  | notSelected
  deriving DecidableEq, Repr

/-- What an arm of `exec` answers. -/
abbrev Result := Host.Outcome State Fault Refusal

/-- The machine right after power-on reset (10_state.md R45): `mode`, the result registers at the spec's values; the
unit registers, which the spec leaves unspecified, at zero, and the environment empty (DESIGN CHOICE: log entries 2,
4, 5, 7). -/
def State.reset : State where
  mode := .idle
  resOk := false
  resLen := 0
  resCause := .none
  tx := ⟨.stx, 0, 0, 0, 0⟩
  rx := ⟨false, false, .hi, 0, 0, 0, 0, 0, 0⟩
  pay := []
  out := []
  env := ⟨[], [], [], [], 0, [], []⟩
  unitOut := .none
  freeDraws := 0

end Sys2Proof.Machine
end

