-- ==== Sys2Proof/Machine/Flags.lean ====
section
/-!
DEFINITION. What is computed from the flags and the control registers: the port outputs (10_state.md R36, R37, R258),
the named receiver states (R43), the numeric codes (30_encoding.md R101), and when a step is selected (R42).
-/

namespace Sys2Proof.Machine

/-- `busy` (R21, R37). -/
def State.busy (s : State) : Bool := decide (s.mode ≠ .idle)

/-- `cmd_ready` (R36). -/
def State.cmdReady (s : State) : Bool := decide (s.mode = .idle)

/-- What the source's `send` returns (60_exceptions.md R258). -/
def State.legacySend (s : State) : Bool := s.resOk

/-- What the source's `receive` returns (R258). -/
def State.legacyReceive (s : State) : Byte := s.resLen

/-- The code on `res_cause` (R102). -/
def State.causePort (s : State) : BitVec 3 := causeCode s.resCause

/-- The code of `mode` (R101). -/
def modeCode : Mode → BitVec 2
  | .idle => 0
  | .send => 1
  | .recv => 2

/-- The code of `tx.phase` (R101). -/
def txPhaseCode : TxPhase → BitVec 3
  | .stx => 0
  | .hi => 1
  | .lo => 2
  | .etx => 3
  | .chi => 4
  | .clo => 5

/-- The code of `rx.phase` (R101). -/
def nibPhaseCode : NibPhase → BitVec 1
  | .hi => 0
  | .lo => 1

/-- The source's flag `first_nibble` (R30). -/
def RxRegs.firstNibble (r : RxRegs) : Bool := decide (r.phase = .hi)

/-- Receiver state Idle (R43). -/
def RxRegs.isIdle (r : RxRegs) : Bool := !r.haveStx

/-- Receiver state Collecting (R43). -/
def RxRegs.isCollecting (r : RxRegs) : Bool := r.haveStx && !r.haveEtx

/-- Receiver state Checksum-pending (R43). -/
def RxRegs.isChecksumPending (r : RxRegs) : Bool := r.haveStx && r.haveEtx

/-- A sender step of phase `p` is selected (R42, R161). -/
def State.sends (s : State) (p : TxPhase) : Bool := decide (s.mode = .send) && decide (s.tx.phase = p)

/-- A receiver outcome that needs a start marker is selected as far as the state goes (R201). -/
def State.receives (s : State) : Bool := decide (s.mode = .recv) && s.rx.haveStx

end Sys2Proof.Machine
end

