-- ==== Sys2Proof/Machine/Ops.lean ====
section
/-!
DEFINITION. The named operations over memory, registers and ports: the host memories (20_memory.md), the ports
(10_state.md R36 to R40), the two exits of a command (60_exceptions.md R256, R257), and what each step does once it is
selected (42_frame_sender.md, 43_frame_receiver.md).
-/

namespace Sys2Proof.Machine

/-! ## Memory -/

/-- What an address that is not listed reads as. The spec gives none; DESIGN CHOICE 0x00, unsafe: log entry 7. -/
def Memory.unlisted : Byte := 0x00

/-- `MemRead(space, a, 1)` (00_scope.md R11). -/
def Memory.read : Memory → Nat → Byte
  | [], _ => Memory.unlisted
  | (k, v) :: m, a => if k = a then v else Memory.read m a

/-- `MemWrite(space, a, 1, v)` (00_scope.md R11), keeping the canonical form. -/
def Memory.write : Memory → Nat → Byte → Memory
  | [], a, v => if v = Memory.unlisted then [] else [(a, v)]
  | (k, w) :: m, a, v =>
    if a < k then (if v = Memory.unlisted then (k, w) :: m else (a, v) :: (k, w) :: m)
    else if a = k then (if v = Memory.unlisted then m else (a, v) :: m)
    else (k, w) :: Memory.write m a v

/-- The canonical form from address `lo` on: addresses strictly rising and below 256 (92_eei_decisions.md D18), no
entry equal to what an unlisted address reads as. -/
def Memory.wfFrom : Nat → Memory → Bool
  | _, [] => true
  | lo, (k, v) :: m =>
    decide (lo ≤ k) && decide (k < 256) && decide (v ≠ Memory.unlisted) && Memory.wfFrom (k + 1) m

/-- The memory is in canonical form. -/
def Memory.wf (m : Memory) : Bool := Memory.wfFrom 0 m

/-- `PAY[0..n)` and `OUT[0..n)` (00_scope.md R12). -/
def Memory.firstBytes (m : Memory) (n : Nat) : List Byte := (List.range n).map m.read

/-! ## Ports -/

/-- The answer of `Now()` at the latest sample: the true time modulo 2^TIME_W (10_state.md R40). -/
def State.now (s : State) : Time := BitVec.ofNat timeW s.env.clock

/-- A sample of the clock (R40): time never runs backwards. `none` if the clock never answers. -/
def sampleClock (s : State) : Option State :=
  match s.env.ticks with
  | [] => none
  | d :: ts => some { s with env := { s.env with clock := s.env.clock + d, ticks := ts } }

/-- What a receiver step finds (R201). -/
inductive Poll where
  /-- A byte was ready and has been read. -/
  | byte (w : Byte) (s : State)
  /-- No byte was ready. -/
  | silent (s : State)
  /-- A device never answers. -/
  | stuck (f : Fault)
  deriving DecidableEq, Repr

/-- The environment's part of a receiver step (R201): one sample of the clock, one question for the count of ready
bytes, one byte read if the count is above zero. The answers are not related to each other (D29). -/
def poll (s : State) : Poll :=
  match sampleClock s with
  | none => .stuck .clockNoAnswer
  | some s1 =>
    match s1.env.rxAvail with
    | [] => .stuck .rxAvailNoAnswer
    | c :: cs =>
      let s2 := { s1 with env := { s1.env with rxAvail := cs } }
      if c = 0 then .silent s2
      else
        match s2.env.rxBytes with
        | [] => .stuck .rxReadNoAnswer
        | w :: ws => .byte w { s2 with env := { s2.env with rxBytes := ws } }

/-- The record of one `TxWrite`: the byte offered and the transport's answer (20_memory.md R64). -/
def logOffer (w : Byte) (r : Nat) (rest : List Nat) (s : State) : State :=
  { s with env := { s.env with txs := s.env.txs ++ [⟨w, r⟩], txAnswers := rest } }

/-- A command offered while the block is busy waits at the port (R36): it is the next thing the host does. -/
def waitAtPort (op : BitVec 1) (len : Byte) (timeout : Time) (s : State) : State :=
  { s with env := { s.env with host := .command op len timeout :: s.env.host } }

/-! ## The exits of a command -/

/-- `raise <Cause>` (60_exceptions.md R256), taking a failure: nothing else changes. -/
def raise (c : Cause) (s : State) : State :=
  { s with resOk := false, resLen := 0, resCause := c, mode := .idle }

/-- `complete(1, len)` (R257): nothing else changes. -/
def complete (len : Byte) (s : State) : State :=
  { s with resOk := true, resLen := len, resCause := .none, mode := .idle }

/-- The cause of a code (30_encoding.md R102). -/
def causeOf (c : Fin 6) : Cause :=
  match c.val with
  | 0 => .none
  | 1 => .timeout
  | 2 => .corrupt
  | 3 => .overflow
  | 4 => .checksum
  | _ => .transport

/-- `n` free values have been drawn (log entry 3). -/
def drew (n : Nat) (s : State) : State := { s with freeDraws := s.freeDraws + n }

/-- `raise NONE`: R250 gives codes to the five failures only, so the cause is a free value; the other writes of R256
happen. DESIGN CHOICE: log entry 19. -/
def raiseUnstated (s : State) : State := drew 1 (raise (causeOf (Config.freeCode s.freeDraws)) s)

/-! ## The start of a command -/

/-- A nibble phase the spec leaves unspecified. -/
def freeNibPhase (n : Nat) : NibPhase := if Config.freeBit n then .lo else .hi

/-- The phase of a code (30_encoding.md R101). -/
def txPhaseOf (c : Fin 6) : TxPhase :=
  match c.val with
  | 0 => .stx
  | 1 => .hi
  | 2 => .lo
  | 3 => .etx
  | 4 => .chi
  | _ => .clo

/-- The acceptance of SEND (42_frame_sender.md R160); `tx.cur` is unspecified (R46): a free value. -/
def sendStart (len : Byte) (s : State) : State :=
  { s with
    mode := .send
    tx := ⟨.stx, 0, len, Config.freeByte s.freeDraws, Config.crcInit⟩
    freeDraws := s.freeDraws + 1 }

/-- The acceptance of RECV at the clock sample `s.now` (43_frame_receiver.md R200); `rx.have_etx`, `rx.phase`,
`rx.pos`, `rx.cur` and `rx.acc` are unspecified (R46): free values. -/
def recvStart (max : Byte) (timeout : Time) (s : State) : State :=
  let n := s.freeDraws
  { s with
    mode := .recv
    rx := ⟨false, Config.freeBit n, freeNibPhase (n + 1), Config.freeByte n, Config.freeByte (n + 1),
      Config.freeByte (n + 2), s.now, max, timeout⟩
    freeDraws := n + 3 }

/-- Power-on reset of an idle block as an event (10_state.md R45, 70_reset_and_hazards.md R300): every unit register is
unspecified, a free value; memories and environment are not the block's. -/
def powerOnReset (s : State) : State :=
  let n := s.freeDraws
  { s with
    mode := .idle
    resOk := false
    resLen := 0
    resCause := .none
    tx := ⟨txPhaseOf (Config.freeCode n), Config.freeByte n, Config.freeByte (n + 1), Config.freeByte (n + 2),
      Config.freeByte (n + 3)⟩
    rx := ⟨Config.freeBit n, Config.freeBit (n + 1), freeNibPhase (n + 2), Config.freeByte (n + 4),
      Config.freeByte (n + 5), Config.freeByte (n + 6), Config.freeTime n, Config.freeByte (n + 7),
      Config.freeTime (n + 1)⟩
    freeDraws := n + 8 }

/-! ## The sender's steps, once selected -/

/-- The shape of a sender step (R161): offer `w`; an answer other than 1 takes TX.FAIL (R168), the answer 1 goes on
with `advance`. -/
def offer (w : Byte) (advance : State → State) (s : State) : Result :=
  match s.env.txAnswers with
  | [] => .fault .txWriteNoAnswer
  | r :: rest =>
    if r = 1 then .next (advance (logOffer w r rest s)) else .next (raise .transport (logOffer w r rest s))

/-- `tx.phase <- p`. -/
def setTxPhase (p : TxPhase) (s : State) : State := { s with tx := { s.tx with phase := p } }

/-- The read of TX.HI (R162): `tx.cur <- PAY[tx.idx]`, `tx.acc <- CRC.BYTE(tx.acc, b)`. -/
def loadPay (s : State) : State :=
  { s with tx := { s.tx with
      cur := s.pay.read s.tx.idx.toNat
      acc := crcByte s.tx.acc (s.pay.read s.tx.idx.toNat) } }

/-- TX.STX (R164) after an accepted write. -/
def afterStx (s : State) : State := if s.tx.len = 0 then setTxPhase .etx s else setTxPhase .hi s

/-- TX.LO (R163) after an accepted write; `tx.idx + 1` is compared as a number, with no 8-bit wrap. -/
def afterLo (s : State) : State :=
  if s.tx.idx.toNat + 1 < s.tx.len.toNat then { s with tx := { s.tx with idx := s.tx.idx + 1, phase := .hi } }
  else setTxPhase .etx s

/-- The sender step of a phase (R161 to R167). -/
def senderStep (p : TxPhase) (s : State) : Result :=
  match p with
  | .stx => offer Config.stx afterStx s
  | .hi => offer (encNib (hi4 (s.pay.read s.tx.idx.toNat))) (setTxPhase .lo) (loadPay s)
  | .lo => offer (encNib (lo4 s.tx.cur)) afterLo s
  | .etx => offer Config.etx (setTxPhase .chi) s
  | .chi => offer (encNib (hi4 s.tx.acc)) (setTxPhase .clo) s
  | .clo => offer (encNib (lo4 s.tx.acc)) (complete 0) s

/-! ## The receiver's outcomes, once selected -/

/-- RX.STX (R205): `rx.cur` and OUT are unchanged. -/
def startFrame (now : Time) (s : State) : State :=
  { s with rx := { s.rx with
      haveStx := true
      haveEtx := false
      phase := .hi
      pos := 0
      acc := Config.crcInit
      t0 := now } }

/-- RX.ETX (R206): one flag and nothing else. -/
def endPayload (s : State) : State := { s with rx := { s.rx with haveEtx := true } }

/-- RX.NIBHI (R207). -/
def holdNibble (n : Nibble) (s : State) : State :=
  { s with rx := { s.rx with cur := n.setWidth 8, phase := .lo } }

/-- The first two lines of RX.NIBLO (R212): the reassembled byte. -/
def joinNibble (n : Nibble) (s : State) : State :=
  { s with rx := { s.rx with cur := (s.rx.cur <<< 4) ||| n.setWidth 8, phase := .hi } }

/-- RX.PAY (R208): the byte goes to the old position. -/
def appendByte (s : State) : State :=
  { s with
    out := s.out.write s.rx.pos.toNat s.rx.cur
    rx := { s.rx with acc := crcByte s.rx.acc s.rx.cur, pos := s.rx.pos + 1 } }

/-- RX.CHK (R210). -/
def checkSum (s : State) : State :=
  if s.rx.cur = s.rx.acc then complete s.rx.pos s else raise .checksum s

/-- RX.NIBLO (R212) with its endings RX.CHK, RX.PAY and RX.OVF, tested in this order (60_exceptions.md R260). -/
def lowNibble (n : Nibble) (s : State) : State :=
  let s' := joinNibble n s
  if s'.rx.haveEtx then checkSum s'
  else if s'.rx.pos < s'.rx.maxlen then appendByte s'
  else raise .overflow s'

/-- A receiver step that has read the byte `w` at the clock sample `now` (R201): STX before everything, then Idle, then
ETX, then the self-check, then the nibble phase. -/
def receiveByte (w : Byte) (now : Time) (s : State) : State :=
  match classify w with
  | .stx => startFrame now s
  | c =>
    if s.rx.haveStx then
      match c with
      | .stx => s
      | .etx => endPayload s
      | .bad => raise .corrupt s
      | .nib n =>
        match s.rx.phase with
        | .hi => holdNibble n s
        | .lo => lowNibble n s
    else s

/-- A receiver step that found no byte (R201): RX.TIMEOUT or RX.WAIT. -/
def receiveNothing (now : Time) (s : State) : State :=
  if deadlinePassed now s.rx.t0 s.rx.timeout then raise .timeout s else s

/-- Wire bytes taken from the transport at one clock sample, a receiver step for each (FEED, 30_encoding.md R105). Once
the block does not receive, what is left stays in the transport, before what it already holds (10_state.md R41). -/
def feed : List Byte → State → State
  | [], s => s
  | w :: ws, s =>
    match s.mode with
    | .recv => feed ws (receiveByte w s.now s)
    | _ => { s with env := { s.env with rxBytes := (w :: ws) ++ s.env.rxBytes } }

end Sys2Proof.Machine
end

