-- ==== Sys2Proof/Machine/Command.lean ====
section
/-!
DEFINITION. The host commands SEND and RECV (42_frame_sender.md R160, 43_frame_receiver.md R200) and the two exits of a
command as instructions (60_exceptions.md R256, R257). A command presented while the block is busy is not accepted and
waits at the port (10_state.md R36).
-/

namespace Sys2Proof.Machine

/-- SEND (R160). -/
def execSend (len : Byte) (s : State) : Result :=
  if s.cmdReady then .next (sendStart len s) else .next (waitAtPort 0 len 0 s)

/-- RECV (R200): the acceptance samples the clock once (10_state.md R40). -/
def execRecv (max : Byte) (timeout : Time) (s : State) : Result :=
  if s.cmdReady then
    match sampleClock s with
    | none => .fault .clockNoAnswer
    | some s' => .next (recvStart max timeout s')
  else .next (waitAtPort 1 max timeout s)

/-- `raise <Cause>` (R256): ends the running command with one of the five failures (R250), in any busy block (DEDUCED:
log entry 20). For NONE, which is no failure, the cause recorded is a free value (DESIGN CHOICE: log entry 19). -/
def execRaise (c : Cause) (s : State) : Result :=
  if s.busy then (if c = .none then .next (raiseUnstated s) else .next (raise c s)) else .refused .notSelected

/-- `complete(ok, len)` (R257): ends the running command with success, in any busy block (DEDUCED: log entry 20). The
rule's four writes do not read `ok`, so they happen for `ok = 0` too (DESIGN CHOICE: log entry 19). -/
def execComplete (_ok : Bool) (len : Byte) (s : State) : Result :=
  if s.busy then .next (complete len s) else .refused .notSelected

end Sys2Proof.Machine
end

