-- ==== Sys2Proof/Machine/Primitive.lean ====
section
/-!
DEFINITION. The primitive operations of the checksum unit and of the codec (40_checksum.md, 41_codec.md) as
instructions: pure functions of their operands; the answer stands on the units' output, `unitOut` (log entry 8), and no
register of the block changes (R124, R128, R148).
-/

namespace Sys2Proof.Machine

/-- CRC.INIT (R120). -/
def execCrcInit (s : State) : Result := .next { s with unitOut := .byte Config.crcInit }

/-- CRC.BIT (R121). -/
def execCrcBit (acc : Byte) (bit : Bool) (s : State) : Result := .next { s with unitOut := .byte (crcBit acc bit) }

/-- CRC.BYTE (R122). -/
def execCrcByte (acc d : Byte) (s : State) : Result := .next { s with unitOut := .byte (crcByte acc d) }

/-- CRC.SEQ (R123). The rule states its result for at most 255 bytes; for more it is a free value (DESIGN CHOICE: log
entry 19). -/
def execCrcSeq (p : List Byte) (s : State) : Result :=
  if p.length ≤ Config.maxLen then .next { s with unitOut := .byte (crcSeq p) }
  else .next (drew 1 { s with unitOut := .byte (Config.freeByte s.freeDraws) })

/-- ENC.NIB (R140). -/
def execEncNib (n : Nibble) (s : State) : Result := .next { s with unitOut := .byte (encNib n) }

/-- ENC.BYTE (R141). -/
def execEncByte (b : Byte) (s : State) : Result :=
  .next { s with unitOut := .pair (encByte b).1 (encByte b).2 }

/-- DEC.VALID (R142). -/
def execDecValid (w : Byte) (s : State) : Result := .next { s with unitOut := .bit (decValid w) }

/-- DEC.NIB (R143). -/
def execDecNib (w : Byte) (s : State) : Result := .next { s with unitOut := .nibbleResult (decNib w) }

/-- DEC.PAIR (R144). -/
def execDecPair (w1 w2 : Byte) (s : State) : Result := .next { s with unitOut := .byteResult (decPair w1 w2) }

end Sys2Proof.Machine
end

