-- ==== Sys2Proof/Machine/Receiver.lean ====
section
/-!
DEFINITION. The receiver's step and its outcomes as instructions (43_frame_receiver.md R201 to R212). An outcome acts
once the environment has answered: the byte it acts on has been read, `now` is the step's clock sample. In a state that
does not select it an outcome is refused (log entry 10).
-/

namespace Sys2Proof.Machine

/-- RX.POLL (R201): ask the environment, then act on the byte or test the deadline. -/
def execRxPoll (s : State) : Result :=
  if s.mode = .recv then
    match poll s with
    | .byte w s' => .next (receiveByte w s'.now s')
    | .silent s' => .next (receiveNothing s'.now s')
    | .stuck f => .fault f
  else .refused .notSelected

/-- RX.SKIP (R202): no register changes. The rule's action does not read the byte, so it is the same for 0x02, for
which a receiver step selects RX.STX instead (DESIGN CHOICE: log entry 19). -/
def execRxSkip (_w : Byte) (s : State) : Result :=
  if s.mode = .recv ∧ s.rx.isIdle then .next s else .refused .notSelected

/-- RX.WAIT (R203): no register changes. -/
def execRxWait (now : Time) (s : State) : Result :=
  if s.mode = .recv ∧ deadlinePassed now s.rx.t0 s.rx.timeout = false then .next s else .refused .notSelected

/-- RX.TIMEOUT (R204). -/
def execRxTimeout (now : Time) (s : State) : Result :=
  if s.mode = .recv ∧ deadlinePassed now s.rx.t0 s.rx.timeout = true then .next (raise .timeout s)
  else .refused .notSelected

/-- RX.STX (R205), in every receiver state. -/
def execRxStx (now : Time) (s : State) : Result :=
  if s.mode = .recv then .next (startFrame now s) else .refused .notSelected

/-- RX.ETX (R206). -/
def execRxEtx (s : State) : Result :=
  if s.receives then .next (endPayload s) else .refused .notSelected

/-- RX.NIBHI (R207). -/
def execRxNibhi (n : Nibble) (s : State) : Result :=
  if s.receives ∧ s.rx.phase = .hi then .next (holdNibble n s) else .refused .notSelected

/-- RX.NIBLO (R212), with its endings. -/
def execRxNiblo (n : Nibble) (s : State) : Result :=
  if s.receives ∧ s.rx.phase = .lo then .next (lowNibble n s) else .refused .notSelected

/-- RX.PAY (R208), the ending of RX.NIBLO for a payload byte that fits. As a row on its own it acts at either
`rx.phase`: R212 sets HI before it selects it, and no rule speaks of LO (DESIGN CHOICE: log entry 23). -/
def execRxPay (s : State) : Result :=
  if s.receives ∧ s.rx.isCollecting ∧ s.rx.pos < s.rx.maxlen then .next (appendByte s) else .refused .notSelected

/-- RX.OVF (R209), the ending of RX.NIBLO for a payload byte that does not fit. As a row on its own it acts at either
`rx.phase` (DESIGN CHOICE: log entry 23). -/
def execRxOvf (s : State) : Result :=
  if s.receives ∧ s.rx.isCollecting ∧ ¬ s.rx.pos < s.rx.maxlen then .next (raise .overflow s)
  else .refused .notSelected

/-- RX.CHK (R210), the ending of RX.NIBLO for the received checksum. As a row on its own it acts at either `rx.phase`
(DESIGN CHOICE: log entry 23). -/
def execRxChk (s : State) : Result :=
  if s.receives ∧ s.rx.isChecksumPending then .next (checkSum s) else .refused .notSelected

/-- RX.BAD (R211). The rule's action does not read the byte, so it is the same for a byte of another class, for which a
receiver step selects another outcome (DESIGN CHOICE: log entry 19). -/
def execRxBad (_w : Byte) (s : State) : Result :=
  if s.receives then .next (raise .corrupt s) else .refused .notSelected

end Sys2Proof.Machine
end

