-- ==== Sys2Proof/Machine/Sender.lean ====
section
/-!
DEFINITION. The sender's steps as instructions (42_frame_sender.md R161 to R169), each selected by `mode = SEND` and its
`tx.phase`. In a state that does not select it a step is refused (log entry 10).
-/

namespace Sys2Proof.Machine

/-- TX.STEP (R161): the step of the current phase. -/
def execTxStep (s : State) : Result :=
  if s.mode = .send then senderStep s.tx.phase s else .refused .notSelected

/-- TX.STX (R164). -/
def execTxStx (s : State) : Result :=
  if s.sends .stx then senderStep .stx s else .refused .notSelected

/-- TX.HI (R162). -/
def execTxHi (s : State) : Result :=
  if s.sends .hi then senderStep .hi s else .refused .notSelected

/-- TX.LO (R163). -/
def execTxLo (s : State) : Result :=
  if s.sends .lo then senderStep .lo s else .refused .notSelected

/-- TX.ETX (R165). -/
def execTxEtx (s : State) : Result :=
  if s.sends .etx then senderStep .etx s else .refused .notSelected

/-- TX.CHI (R166). -/
def execTxChi (s : State) : Result :=
  if s.sends .chi then senderStep .chi s else .refused .notSelected

/-- TX.CLO (R167). -/
def execTxClo (s : State) : Result :=
  if s.sends .clo then senderStep .clo s else .refused .notSelected

/-- TX.FAIL (R168): the outcome of a sender step whose write failed. -/
def execTxFail (s : State) : Result :=
  if s.mode = .send then .next (raise .transport s) else .refused .notSelected

/-- TX.DONE (R169): the outcome of an accepted last write, in phase T_CLO. -/
def execTxDone (s : State) : Result :=
  if s.sends .clo then .next (complete 0 s) else .refused .notSelected

end Sys2Proof.Machine
end

