-- ==== Sys2Proof/Machine/Wire.lean ====
section
/-!
DEFINITION. The wire-byte rows STX, ETX, NIB.0 to NIB.F and BAD, and the layouts PAIR and FRAME (30_encoding.md R90 to
R97), as instructions: the receiver's reaction to those wire bytes (R201), taken from the transport at the clock sample
`now`. While the block does not receive it reads nothing, and the bytes stay in the transport (10_state.md R41,
43_frame_receiver.md R213). Log entry 9.
-/

namespace Sys2Proof.Machine

/-- Row STX (R92): RX.STX in every receiver state (R205). -/
def execStx (s : State) : Result := .next (feed [0x02] s)

/-- Row ETX (R92): RX.ETX after a start marker (R206), RX.SKIP in Idle (R202). -/
def execEtx (s : State) : Result := .next (feed [0x03] s)

/-- Row NIB.0 (R93): the nibble code 0x0F. -/
def execNib0 (s : State) : Result := .next (feed [encNib 0x0] s)

/-- Row NIB.1 (R93): the nibble code 0x1E. -/
def execNib1 (s : State) : Result := .next (feed [encNib 0x1] s)

/-- Row NIB.2 (R93): the nibble code 0x2D. -/
def execNib2 (s : State) : Result := .next (feed [encNib 0x2] s)

/-- Row NIB.3 (R93): the nibble code 0x3C. -/
def execNib3 (s : State) : Result := .next (feed [encNib 0x3] s)

/-- Row NIB.4 (R93): the nibble code 0x4B. -/
def execNib4 (s : State) : Result := .next (feed [encNib 0x4] s)

/-- Row NIB.5 (R93): the nibble code 0x5A. -/
def execNib5 (s : State) : Result := .next (feed [encNib 0x5] s)

/-- Row NIB.6 (R93): the nibble code 0x69. -/
def execNib6 (s : State) : Result := .next (feed [encNib 0x6] s)

/-- Row NIB.7 (R93): the nibble code 0x78. -/
def execNib7 (s : State) : Result := .next (feed [encNib 0x7] s)

/-- Row NIB.8 (R93): the nibble code 0x87. -/
def execNib8 (s : State) : Result := .next (feed [encNib 0x8] s)

/-- Row NIB.9 (R93): the nibble code 0x96. -/
def execNib9 (s : State) : Result := .next (feed [encNib 0x9] s)

/-- Row NIB.A (R93): the nibble code 0xA5. -/
def execNibA (s : State) : Result := .next (feed [encNib 0xA] s)

/-- Row NIB.B (R93): the nibble code 0xB4. -/
def execNibB (s : State) : Result := .next (feed [encNib 0xB] s)

/-- Row NIB.C (R93): the nibble code 0xC3. -/
def execNibC (s : State) : Result := .next (feed [encNib 0xC] s)

/-- Row NIB.D (R93): the nibble code 0xD2. -/
def execNibD (s : State) : Result := .next (feed [encNib 0xD] s)

/-- Row NIB.E (R93): the nibble code 0xE1. -/
def execNibE (s : State) : Result := .next (feed [encNib 0xE] s)

/-- Row NIB.F (R93): the nibble code 0xF0. -/
def execNibF (s : State) : Result := .next (feed [encNib 0xF] s)

/-- Row BAD (R94): CORRUPT after a start marker (R211), RX.SKIP in Idle (R202). The decoder gives this row no byte of
another class; one written here by hand is received as what it is (DESIGN CHOICE: log entry 19). -/
def execBad (w : Byte) (s : State) : Result := .next (feed [w] s)

/-- Row PAIR (R96): the two nibble codes of a raw byte, the high nibble's first. -/
def execPair (b : Byte) (s : State) : Result := .next (feed (pairBytes b) s)

/-- Row FRAME (R97): the wire bytes of the frame of a payload. For more than 255 bytes the layout is the same and the
checksum byte, which R123 does not state there, a free value (DESIGN CHOICE: log entry 19). -/
def execFrame (p : List Byte) (s : State) : Result :=
  if p.length ≤ Config.maxLen then .next (feed (frameBytes p) s)
  else .next (drew 1 (feed (frameWith (Config.freeByte s.freeDraws) p) s))

end Sys2Proof.Machine
end

