-- ==== Sys2Proof/Machine/Dispatch.lean ====
section
/-! DEFINITION. The meaning of every instruction: one arm per constructor, each a direct call. -/

namespace Sys2Proof.Machine

def exec (i : Instr) (s : State) : Host.Outcome State Fault Refusal :=
  match i with
  | .stx => Sys2Proof.Machine.execStx s
  | .etx => Sys2Proof.Machine.execEtx s
  | .nib0 => Sys2Proof.Machine.execNib0 s
  | .nib1 => Sys2Proof.Machine.execNib1 s
  | .nib2 => Sys2Proof.Machine.execNib2 s
  | .nib3 => Sys2Proof.Machine.execNib3 s
  | .nib4 => Sys2Proof.Machine.execNib4 s
  | .nib5 => Sys2Proof.Machine.execNib5 s
  | .nib6 => Sys2Proof.Machine.execNib6 s
  | .nib7 => Sys2Proof.Machine.execNib7 s
  | .nib8 => Sys2Proof.Machine.execNib8 s
  | .nib9 => Sys2Proof.Machine.execNib9 s
  | .nibA => Sys2Proof.Machine.execNibA s
  | .nibB => Sys2Proof.Machine.execNibB s
  | .nibC => Sys2Proof.Machine.execNibC s
  | .nibD => Sys2Proof.Machine.execNibD s
  | .nibE => Sys2Proof.Machine.execNibE s
  | .nibF => Sys2Proof.Machine.execNibF s
  | .bad w => Sys2Proof.Machine.execBad w s
  | .pair b => Sys2Proof.Machine.execPair b s
  | .frame p => Sys2Proof.Machine.execFrame p s
  | .send len => Sys2Proof.Machine.execSend len s
  | .recv max timeout => Sys2Proof.Machine.execRecv max timeout s
  | .crcInit => Sys2Proof.Machine.execCrcInit s
  | .crcBit acc bit => Sys2Proof.Machine.execCrcBit acc bit s
  | .crcByte acc d => Sys2Proof.Machine.execCrcByte acc d s
  | .crcSeq p => Sys2Proof.Machine.execCrcSeq p s
  | .encNib n => Sys2Proof.Machine.execEncNib n s
  | .encByte b => Sys2Proof.Machine.execEncByte b s
  | .decValid w => Sys2Proof.Machine.execDecValid w s
  | .decNib w => Sys2Proof.Machine.execDecNib w s
  | .decPair w1 w2 => Sys2Proof.Machine.execDecPair w1 w2 s
  | .raise c => Sys2Proof.Machine.execRaise c s
  | .complete ok len => Sys2Proof.Machine.execComplete ok len s
  | .txStep => Sys2Proof.Machine.execTxStep s
  | .txStx => Sys2Proof.Machine.execTxStx s
  | .txHi => Sys2Proof.Machine.execTxHi s
  | .txLo => Sys2Proof.Machine.execTxLo s
  | .txEtx => Sys2Proof.Machine.execTxEtx s
  | .txChi => Sys2Proof.Machine.execTxChi s
  | .txClo => Sys2Proof.Machine.execTxClo s
  | .txFail => Sys2Proof.Machine.execTxFail s
  | .txDone => Sys2Proof.Machine.execTxDone s
  | .rxPoll => Sys2Proof.Machine.execRxPoll s
  | .rxSkip w => Sys2Proof.Machine.execRxSkip w s
  | .rxWait now => Sys2Proof.Machine.execRxWait now s
  | .rxTimeout now => Sys2Proof.Machine.execRxTimeout now s
  | .rxStx now => Sys2Proof.Machine.execRxStx now s
  | .rxEtx => Sys2Proof.Machine.execRxEtx s
  | .rxNibhi n => Sys2Proof.Machine.execRxNibhi n s
  | .rxNiblo n => Sys2Proof.Machine.execRxNiblo n s
  | .rxPay => Sys2Proof.Machine.execRxPay s
  | .rxOvf => Sys2Proof.Machine.execRxOvf s
  | .rxChk => Sys2Proof.Machine.execRxChk s
  | .rxBad w => Sys2Proof.Machine.execRxBad w s

end Sys2Proof.Machine
end

