-- ==== Sys2Proof/WellFormed.lean ====
section
/-!
DEFINITION. Which operands each row of opcode_table.json admits.
-/

namespace Sys2Proof

/-- The operands are in the range the row gives them. The constraints: a BAD byte is of class BAD (30_encoding.md R94),
payloads and sequences have at most 255 bytes (R97, R123), a raised cause is one of the five failures
(60_exceptions.md R250), `complete` is the success exit (R257), RX.SKIP's byte is not the start marker (R202) and
RX.BAD's is of class BAD (R211). -/
def Instr.wf : Instr → Bool
  | .stx => true
  | .etx => true
  | .nib0 => true
  | .nib1 => true
  | .nib2 => true
  | .nib3 => true
  | .nib4 => true
  | .nib5 => true
  | .nib6 => true
  | .nib7 => true
  | .nib8 => true
  | .nib9 => true
  | .nibA => true
  | .nibB => true
  | .nibC => true
  | .nibD => true
  | .nibE => true
  | .nibF => true
  | .bad w => decide (Machine.classify w = .bad)
  | .pair _ => true
  | .frame p => decide (p.length ≤ Config.maxLen)
  | .send _ => true
  | .recv _ _ => true
  | .crcInit => true
  | .crcBit _ _ => true
  | .crcByte _ _ => true
  | .crcSeq p => decide (p.length ≤ Config.maxLen)
  | .encNib _ => true
  | .encByte _ => true
  | .decValid _ => true
  | .decNib _ => true
  | .decPair _ _ => true
  | .raise c => decide (c ≠ .none)
  | .complete ok _ => ok
  | .txStep => true
  | .txStx => true
  | .txHi => true
  | .txLo => true
  | .txEtx => true
  | .txChi => true
  | .txClo => true
  | .txFail => true
  | .txDone => true
  | .rxPoll => true
  | .rxSkip w => decide (w ≠ Config.stx)
  | .rxWait _ => true
  | .rxTimeout _ => true
  | .rxStx _ => true
  | .rxEtx => true
  | .rxNibhi _ => true
  | .rxNiblo _ => true
  | .rxPay => true
  | .rxOvf => true
  | .rxChk => true
  | .rxBad w => decide (Machine.classify w = .bad)

end Sys2Proof
end

