-- ==== Sys2Proof/Decode.lean ====
section
/-!
DEFINITION. The decoder of wire bytes, pairs, frames and commands (30_encoding.md R90 to R101), total and rejecting by
name, and after it the encoder, written from the same rules.
-/

namespace Sys2Proof

/-- The row `NIB.n` of a nibble (R93). -/
def nibInstr (n : Nibble) : Instr :=
  match n.toNat with
  | 0 => .nib0
  | 1 => .nib1
  | 2 => .nib2
  | 3 => .nib3
  | 4 => .nib4
  | 5 => .nib5
  | 6 => .nib6
  | 7 => .nib7
  | 8 => .nib8
  | 9 => .nib9
  | 10 => .nibA
  | 11 => .nibB
  | 12 => .nibC
  | 13 => .nibD
  | 14 => .nibE
  | _ => .nibF

/-- A wire byte as the receiver decodes it (R91): every value has a row. -/
def decodeWire (w : Byte) : Instr :=
  match Machine.classify w with
  | .stx => .stx
  | .etx => .etx
  | .nib n => nibInstr n
  | .bad => .bad w

/-- A command as the command port presents it (R101): `cmd_op = 0` is SEND, which ignores `cmd_timeout`
(42_frame_sender.md R160), `cmd_op = 1` is RECV. -/
def decodeCommand (op : BitVec 1) (len : Byte) (timeout : Time) : Instr :=
  if op = 0 then .send len else .recv len timeout

/-- The pairs before the end marker, and what follows the marker (R97). -/
def decodePayload : List Byte → Except DecodeError (List Byte × List Byte)
  | [] => .error .noEnd
  | [w] => if w = Config.etx then .ok ([], []) else .error .noEnd
  | w1 :: w2 :: rest =>
    if w1 = Config.etx then .ok ([], w2 :: rest)
    else
      match Machine.decPair w1 w2 with
      | none => .error .badCode
      | some b =>
        match decodePayload rest with
        | .error e => .error e
        | .ok (p, tail) => .ok (b :: p, tail)

/-- The checksum pair that ends a frame (R97). -/
def decodeTail (p tail : List Byte) : Except DecodeError Instr :=
  match tail with
  | [c1, c2] =>
    match Machine.decPair c1 c2 with
    | none => .error .badCode
    | some c =>
      if c ≠ Machine.crcSeq p then .error .badChecksum
      else if Config.maxLen < p.length then .error .tooLong
      else .ok (.frame p)
  | _ => .error .badTail

/-- A sequence of wire bytes as the layout FRAME of R97 (the language the sender builds; what the receiver accepts is
wider, R100, and is the business of the receiver's steps). -/
def decodeFrame (ws : List Byte) : Except DecodeError Instr :=
  match ws with
  | [] => .error .noStart
  | w :: rest =>
    if w = Config.stx then
      match decodePayload rest with
      | .error e => .error e
      | .ok (p, tail) => decodeTail p tail
    else .error .noStart

/-- The decoder: every bit pattern of the table is an instruction or is rejected by name. -/
def decode : PortWord → Except DecodeError Instr
  | .wire w => .ok (decodeWire w)
  | .pair w1 w2 =>
    match Machine.decPair w1 w2 with
    | some b => .ok (.pair b)
    | none => .error .badCode
  | .frame ws => decodeFrame ws
  | .command op len timeout => .ok (decodeCommand op len timeout)

/-- The encoder: the bit pattern of an instruction, none for the rows of format OP and STEP (R106). -/
def encode : Instr → Option PortWord
  | .stx => some (.wire 0x02)
  | .etx => some (.wire 0x03)
  | .nib0 => some (.wire (Machine.encNib 0x0))
  | .nib1 => some (.wire (Machine.encNib 0x1))
  | .nib2 => some (.wire (Machine.encNib 0x2))
  | .nib3 => some (.wire (Machine.encNib 0x3))
  | .nib4 => some (.wire (Machine.encNib 0x4))
  | .nib5 => some (.wire (Machine.encNib 0x5))
  | .nib6 => some (.wire (Machine.encNib 0x6))
  | .nib7 => some (.wire (Machine.encNib 0x7))
  | .nib8 => some (.wire (Machine.encNib 0x8))
  | .nib9 => some (.wire (Machine.encNib 0x9))
  | .nibA => some (.wire (Machine.encNib 0xA))
  | .nibB => some (.wire (Machine.encNib 0xB))
  | .nibC => some (.wire (Machine.encNib 0xC))
  | .nibD => some (.wire (Machine.encNib 0xD))
  | .nibE => some (.wire (Machine.encNib 0xE))
  | .nibF => some (.wire (Machine.encNib 0xF))
  | .bad w => some (.wire w)
  | .pair b => some (.pair (Machine.encByte b).1 (Machine.encByte b).2)
  | .frame p => some (.frame (Machine.frameBytes p))
  | .send len => some (.command 0 len 0)
  | .recv max timeout => some (.command 1 max timeout)
  | .crcInit => none
  | .crcBit _ _ => none
  | .crcByte _ _ => none
  | .crcSeq _ => none
  | .encNib _ => none
  | .encByte _ => none
  | .decValid _ => none
  | .decNib _ => none
  | .decPair _ _ => none
  | .raise _ => none
  | .complete _ _ => none
  | .txStep => none
  | .txStx => none
  | .txHi => none
  | .txLo => none
  | .txEtx => none
  | .txChi => none
  | .txClo => none
  | .txFail => none
  | .txDone => none
  | .rxPoll => none
  | .rxSkip _ => none
  | .rxWait _ => none
  | .rxTimeout _ => none
  | .rxStx _ => none
  | .rxEtx => none
  | .rxNibhi _ => none
  | .rxNiblo _ => none
  | .rxPay => none
  | .rxOvf => none
  | .rxChk => none
  | .rxBad _ => none

/-- The first `n` bytes of a number, least significant first (log entry 11). -/
def bytesOf : Nat → Nat → List Byte
  | 0, _ => []
  | n + 1, w => BitVec.ofNat 8 w :: bytesOf n (w / 256)

/-- The bit pattern that the host's numbering of table words stands for: up to 8 bits, the words 0 and 1 are the
command port's `cmd_op` with operands of zeros (the rows SEND and RECV, whose match is on bit 0) and every other value
is a wire byte; 16 bits are a pair; more bits are a frame. The LOW byte is the first wire byte, as the host numbers the
bits of a table word (the spec gives no multi-byte order, 20_memory.md R68). DESIGN CHOICE: log entry 11 (as WIRE bytes
0x00 and 0x01 are of class BAD, and the receiver decodes them so: `decodeWire`). -/
def tableWord (nbits w : Nat) : PortWord :=
  if nbits ≤ 8 then
    if w < 2 then .command (BitVec.ofNat 1 w) 0 0 else .wire (BitVec.ofNat 8 w)
  else if nbits = 16 then .pair (BitVec.ofNat 8 w) (BitVec.ofNat 8 (w / 256))
  else .frame (bytesOf (nbits / 8) w)

/-- The instruction the decoder reads from a word of spec/opcode_table.json. -/
def decodeTableWord (nbits w : Nat) : Option Instr :=
  match decode (tableWord nbits w) with
  | .ok i => some i
  | .error _ => none

end Sys2Proof
end

