-- ==== Sys2Proof/Machine/Fetch.lean ====
section
/-!
DEFINITION. What selects the next instruction (10_state.md R42; the block has no program counter): the host's next act
while `mode = IDLE`, `tx.phase` while `mode = SEND`, the transport's and the clock's answers while `mode = RECV`.
-/

namespace Sys2Proof.Machine

/-- What a step is. -/
inductive Fetched where
  /-- Run this instruction from this state (its byte read, its command taken from the port). -/
  | run (i : Instr) (s : State)
  /-- The host acts, or does nothing; the block does nothing. -/
  | host (s : State)
  /-- A device never answers. -/
  | stuck (f : Fault)
  deriving DecidableEq, Repr

/-- The sender's instruction of a phase (42_frame_sender.md R161). -/
def senderInstr : TxPhase → Instr
  | .stx => .txStx
  | .hi => .txHi
  | .lo => .txLo
  | .etx => .txEtx
  | .chi => .txChi
  | .clo => .txClo

/-- The idle block: a command at the port is accepted (R36); the host may write its memories or reset the block
(60_exceptions.md R268, 70_reset_and_hazards.md R300); with nothing presented nothing happens. -/
def fetchIdle (s : State) : Fetched :=
  match s.env.host with
  | [] => .host s
  | .command op len timeout :: rest =>
    .run (decodeCommand op len timeout) { s with env := { s.env with host := rest } }
  | .writePay a v :: rest =>
    .host { s with pay := s.pay.write a.toNat v, env := { s.env with host := rest } }
  | .writeOut a v :: rest =>
    .host { s with out := s.out.write a.toNat v, env := { s.env with host := rest } }
  | .reset :: rest => .host (powerOnReset { s with env := { s.env with host := rest } })

/-- The receiving block (43_frame_receiver.md R201): the byte read is the instruction; without one, RX.TIMEOUT or
RX.WAIT. -/
def fetchRecv (s : State) : Fetched :=
  match poll s with
  | .stuck f => .stuck f
  | .byte w s' => .run (decodeWire w) s'
  | .silent s' =>
    if deadlinePassed s'.now s'.rx.t0 s'.rx.timeout then .run (.rxTimeout s'.now) s'
    else .run (.rxWait s'.now) s'

/-- The selection of the next step (10_state.md R42). -/
def fetch (s : State) : Fetched :=
  match s.mode with
  | .idle => fetchIdle s
  | .send => .run (senderInstr s.tx.phase) s
  | .recv => fetchRecv s

/-- The state in which the next step fetches the bit pattern `p`: a command waits at the port of an idle block (with a
clock sample for RECV), wire bytes lie next in the transport of a receiving block, each ready and with a clock
sample. -/
def placeWord (p : PortWord) (s : State) : State :=
  match p with
  | .command op len timeout =>
    { s with
      mode := .idle
      env := { s.env with
        host := .command op len timeout :: s.env.host
        ticks := if op = 0 then s.env.ticks else 0 :: s.env.ticks } }
  | .wire w => placeBytes [w] s
  | .pair w1 w2 => placeBytes [w1, w2] s
  | .frame ws => placeBytes ws s
where
  /-- Wire bytes next in the transport. -/
  placeBytes (ws : List Byte) (s : State) : State :=
    { s with
      mode := .recv
      env := { s.env with
        ticks := ws.map (fun _ => 0) ++ s.env.ticks
        rxAvail := ws.map (fun _ => 1) ++ s.env.rxAvail
        rxBytes := ws ++ s.env.rxBytes } }

end Sys2Proof.Machine
end

