-- ==== Sys2Proof/Machine/Step.lean ====
section
/-!
DEFINITION. One atomic step (00_scope.md R4): the selected instruction runs; with none selected the block does nothing.
-/

namespace Sys2Proof.Machine

/-- One step of the machine. -/
def step (s : State) : Host.Outcome State Fault Refusal :=
  match fetch s with
  | .run i s' => exec i s'
  | .host s' => .next s'
  | .stuck f => .fault f

/-- `s` with a word of spec/opcode_table.json where the next step fetches it (log entry 12). -/
def State.withFetchWord (s : State) (nbits w : Nat) : State := placeWord (tableWord nbits w) s

end Sys2Proof.Machine
end

