-- ==== Sys2Proof/Safety.lean ====
section
/-!
DEFINITION. The terms the claims are stated in: what an accepted offer, a failure and a success leave (written from the
rules, apart from the machine's own operations), what it takes for bytes to be ready, and the invariant of 10_state.md
R44 that every step keeps.
-/

namespace Sys2Proof.Claims

open Sys2Proof.Machine

/-- `k` steps of the machine, stopping at the first fault or refusal. -/
def run : Nat → State → Result
  | 0, s => .next s
  | k + 1, s =>
    match step s with
    | .next t => run k t
    | .fault f => .fault f
    | .refused r => .refused r

/-- One wire byte `w` was offered to the transport, which answered `r` (20_memory.md R64). -/
def offered (w : Byte) (r : Nat) (rest : List Nat) (s : State) : State :=
  { s with env := { s.env with txs := s.env.txs ++ [⟨w, r⟩], txAnswers := rest } }

/-- The command ended with the failure `c` and nothing else changed (60_exceptions.md R256). -/
def failed (c : Cause) (s : State) : State :=
  { s with mode := .idle, resOk := false, resLen := 0, resCause := c }

/-- The command ended with success and nothing else changed (60_exceptions.md R257). -/
def succeeded (len : Byte) (s : State) : State :=
  { s with mode := .idle, resOk := true, resLen := len, resCause := .none }

/-- A receiver step's clock sample and question, and the byte it read (43_frame_receiver.md R201). -/
def polledByte (d : Nat) (ts cs : List Nat) (ws : List Byte) (s : State) : State :=
  { s with env := { s.env with clock := s.env.clock + d, ticks := ts, rxAvail := cs, rxBytes := ws } }

/-- A receiver step's clock sample and question that found no byte (43_frame_receiver.md R201). -/
def polledNothing (d : Nat) (ts cs : List Nat) (s : State) : State :=
  { s with env := { s.env with clock := s.env.clock + d, ticks := ts, rxAvail := cs } }

/-- The next `n` receiver steps all find a byte ready. -/
def readySteps (n : Nat) (ticks avail : List Nat) : Prop :=
  n ≤ ticks.length ∧ n ≤ avail.length ∧ ∀ c ∈ avail.take n, 0 < c

/-- The same state with other values in the registers that 10_state.md R45 and R46 leave unspecified, and in the
model's own fields: what the host and the transport see is equal. -/
def sameOutside (s t : State) : Prop :=
  s.mode = t.mode ∧ s.resOk = t.resOk ∧ s.resLen = t.resLen ∧ s.resCause = t.resCause ∧ s.pay = t.pay ∧
    s.out = t.out ∧ s.env = t.env

/-- Two outcomes that the host and the transport cannot tell apart. -/
def sameOutcome : Result → Result → Prop
  | .next s, .next t => sameOutside s t
  | .fault f, .fault g => f = g
  | .refused a, .refused b => a = b
  | _, _ => False

/-- The source's own form of CRC.BYTE (40_checksum.md R122): the input byte is shifted instead of indexed. -/
def crcByteShift : Nat → Byte → Byte → Byte
  | 0, acc, _ => acc
  | n + 1, acc, d =>
    crcByteShift n (if (acc ^^^ d).getLsbD 0 then (acc >>> 1) ^^^ 0x8C else acc >>> 1) (d >>> 1)

/-- How many bytes of PAY the sender has read (10_state.md R44 (v)). -/
def bytesRead (r : TxRegs) : Nat :=
  match r.phase with
  | .stx => 0
  | .hi => r.idx.toNat
  | .lo => r.idx.toNat + 1
  | .etx => r.len.toNat
  | .chi => r.len.toNat
  | .clo => r.len.toNat

/-- How many bytes of the frame the sender has written (10_state.md R44 (vi)). -/
def bytesWritten (r : TxRegs) : Nat :=
  match r.phase with
  | .stx => 0
  | .hi => 1 + 2 * r.idx.toNat
  | .lo => 2 + 2 * r.idx.toNat
  | .etx => 1 + 2 * r.len.toNat
  | .chi => 2 + 2 * r.len.toNat
  | .clo => 3 + 2 * r.len.toNat

/-- The sender's invariants (10_state.md R24, R26, R44 (v), (vi)). -/
def senderInv (s : State) : Prop :=
  (s.tx.phase = .stx → s.tx.idx = 0) ∧
  (s.tx.phase = .hi ∨ s.tx.phase = .lo → s.tx.idx.toNat < s.tx.len.toNat) ∧
  (s.tx.phase = .lo → s.tx.cur = s.pay.read s.tx.idx.toNat) ∧
  s.tx.acc = crcSeq (s.pay.firstBytes (bytesRead s.tx)) ∧
  ∃ before, s.env.txs = before ++
    ((frameBytes (s.pay.firstBytes s.tx.len.toNat)).take (bytesWritten s.tx)).map (fun w => ⟨w, 1⟩)

/-- The receiver's invariants after a start marker (10_state.md R44 (i) to (iv)). -/
def receiverInv (s : State) : Prop :=
  s.rx.pos.toNat ≤ s.rx.maxlen.toNat ∧
  s.rx.acc = crcSeq (s.out.firstBytes s.rx.pos.toNat) ∧
  (s.rx.phase = .lo → hi4 s.rx.cur = 0)

/-- The invariant every step keeps: both memories are canonical, and the running unit's invariants hold. -/
def inv (s : State) : Prop :=
  s.pay.wf = true ∧ s.out.wf = true ∧
  (s.mode = .send → senderInv s) ∧
  (s.mode = .recv → s.rx.haveStx = true → receiverInv s)

end Sys2Proof.Claims
end

