-- ==== Sys2Proof/Certificates/Slice0/Obligations.lean ====
section
/-!
DEFINITION. The statements about the model. Each docstring names the rule it formalises. Result statements give the
whole next state, so that they are frames as well: what the record does not name is unchanged, every byte of PAY and
OUT among it.
-/

open Sys2Proof Sys2Proof.Machine Sys2Proof.Claims

/-! ## The step, the host, reset -/

/-- A step runs the instruction it selects (10_state.md R42): the command at the port of an idle block, the sender's
step of `tx.phase`, the instruction that the byte read decodes to, or the deadline test of a step without a byte. -/
def Obligations.StepRunsSelectedInstruction : Prop :=
  ∀ s : State,
    (∀ op len timeout rest i, s.mode = .idle → s.env.host = .command op len timeout :: rest →
      decode (.command op len timeout) = .ok i →
      step s = exec i { s with env := { s.env with host := rest } }) ∧
    (s.mode = .send → s.tx.phase = .stx → step s = exec .txStx s) ∧
    (s.mode = .send → s.tx.phase = .hi → step s = exec .txHi s) ∧
    (s.mode = .send → s.tx.phase = .lo → step s = exec .txLo s) ∧
    (s.mode = .send → s.tx.phase = .etx → step s = exec .txEtx s) ∧
    (s.mode = .send → s.tx.phase = .chi → step s = exec .txChi s) ∧
    (s.mode = .send → s.tx.phase = .clo → step s = exec .txClo s) ∧
    (∀ d ts c cs w ws i, s.mode = .recv → s.env.ticks = d :: ts → s.env.rxAvail = c :: cs → 0 < c →
      s.env.rxBytes = w :: ws → decode (.wire w) = .ok i → step s = exec i (polledByte d ts cs ws s)) ∧
    (∀ d ts cs, s.mode = .recv → s.env.ticks = d :: ts → s.env.rxAvail = 0 :: cs →
      step s =
        (if s.rx.timeout < BitVec.ofNat timeW (s.env.clock + d) - s.rx.t0 then
          exec (.rxTimeout (BitVec.ofNat timeW (s.env.clock + d))) (polledNothing d ts cs s)
        else exec (.rxWait (BitVec.ofNat timeW (s.env.clock + d))) (polledNothing d ts cs s)))

/-- A step of the busy block is what TX.STEP and RX.POLL do (42_frame_sender.md R161, 43_frame_receiver.md R201). -/
def Obligations.StepIsTxStepOrRxPoll : Prop :=
  ∀ s : State, (s.mode = .send → step s = exec .txStep s) ∧ (s.mode = .recv → step s = exec .rxPoll s)

/-- The idle block does nothing by itself (92_eei_decisions.md D27, log entry 14), and between commands the host may
write its two memories (60_exceptions.md R268, log entry 6). -/
def Obligations.IdleBlockServesHost : Prop :=
  ∀ s : State, s.mode = .idle →
    (s.env.host = [] → step s = .next s) ∧
    (∀ a v rest, s.env.host = .writePay a v :: rest →
      step s = .next { s with pay := s.pay.write a.toNat v, env := { s.env with host := rest } }) ∧
    (∀ a v rest, s.env.host = .writeOut a v :: rest →
      step s = .next { s with out := s.out.write a.toNat v, env := { s.env with host := rest } })

/-- Power-on reset (10_state.md R45): the state after reset, and the reset of an idle block, whatever value the
unspecified registers take. Memories and environment are not the block's (70_reset_and_hazards.md R300). -/
def Obligations.ResetClearsControl : Prop :=
  (State.reset.mode = .idle ∧ State.reset.resOk = false ∧ State.reset.resLen = 0 ∧ State.reset.resCause = .none) ∧
  ∀ (s : State) (rest : List HostAct), s.mode = .idle → s.env.host = .reset :: rest →
    ∃ t, step s = .next t ∧ t.mode = .idle ∧ t.resOk = false ∧ t.resLen = 0 ∧ t.resCause = .none ∧
      t.pay = s.pay ∧ t.out = s.out ∧ t.env = { s.env with host := rest }

/-- The invariant holds at reset. It rests on log entries 2 and 7 for the values the spec does not give. -/
def Obligations.ResetSatisfiesInvariant : Prop := inv State.reset

/-- Every step keeps the invariant of 10_state.md R44, which the spec derives from the steps' rules. -/
def Obligations.StepKeepsInvariant : Prop :=
  ∀ s t : State, inv s → step s = .next t → inv t

/-- While a command runs nothing the host presents is taken and PAY is unchanged (10_state.md R36,
70_reset_and_hazards.md R305), and each unit touches only what is its own (20_memory.md R60): a sender step changes
neither OUT nor the receiver nor RXS nor the clock, a receiver step neither the sender nor TXS. -/
def Obligations.RunningUnitFrame : Prop :=
  ∀ s t : State, step s = .next t →
    (s.mode ≠ .idle → t.env.host = s.env.host ∧ t.pay = s.pay ∧ t.unitOut = s.unitOut ∧ t.freeDraws = s.freeDraws) ∧
    (s.mode = .send → t.out = s.out ∧ t.rx = s.rx ∧ t.env.rxAvail = s.env.rxAvail ∧ t.env.rxBytes = s.env.rxBytes ∧
      t.env.clock = s.env.clock ∧ t.env.ticks = s.env.ticks ∧
      t.tx.len = s.tx.len ∧ ∃ o, t.env.txs = s.env.txs ++ [o]) ∧
    (s.mode = .recv → t.tx = s.tx ∧ t.env.txs = s.env.txs ∧ t.env.txAnswers = s.env.txAnswers ∧
      t.rx.maxlen = s.rx.maxlen ∧ t.rx.timeout = s.rx.timeout)

/-- The receiver writes OUT at `rx.pos` and below `rx.maxlen` only (20_memory.md R62). -/
def Obligations.OutWritesStayBelowCapacity : Prop :=
  ∀ s t : State, s.mode = .recv → step s = .next t →
    ∀ a, t.out.read a ≠ s.out.read a → a = s.rx.pos.toNat ∧ a < s.rx.maxlen.toNat

/-- The result registers hold in every step that neither ends a command (it begins idle, or does not end idle) nor is a
reset of the idle block (10_state.md R22): while a command is accepted or runs, while the host writes its memories, and
while nothing is presented. -/
def Obligations.ResultsHoldUntilExit : Prop :=
  ∀ s t : State, step s = .next t → (s.mode = .idle ∨ t.mode ≠ .idle) →
    (s.mode = .idle → ∀ rest, s.env.host ≠ .reset :: rest) →
    t.resOk = s.resOk ∧ t.resLen = s.resLen ∧ t.resCause = s.resCause

/-- What ends a command (43_frame_receiver.md R222, 42_frame_sender.md R160, 60_exceptions.md R250): RECV ends with
success, TIMEOUT, CORRUPT, OVERFLOW or CHECKSUM, SEND with success or TRANSPORT, and neither turns into the other. -/
def Obligations.CommandsEndOnlyAsListed : Prop :=
  ∀ s t : State, step s = .next t →
    (s.mode = .recv → t.mode = .recv ∨
      t.mode = .idle ∧
        ((t.resOk = true ∧ t.resCause = .none ∧ t.resLen = s.rx.pos ∧ s.rx.haveEtx = true) ∨
         (t.resOk = false ∧ t.resLen = 0 ∧
          (t.resCause = .timeout ∨ t.resCause = .corrupt ∨ t.resCause = .overflow ∨ t.resCause = .checksum)))) ∧
    (s.mode = .send → t.mode = .send ∨
      t.mode = .idle ∧ t.resLen = 0 ∧
        ((t.resOk = true ∧ t.resCause = .none ∧ s.tx.phase = .clo) ∨ (t.resOk = false ∧ t.resCause = .transport)))

/-- The registers that reset and the acceptance of a command leave unspecified cannot influence a run (10_state.md R46,
which the spec derives): from two idle states that differ only in the unit registers (and in the model's own fields)
every number of steps gives what the host and the transport cannot tell apart. -/
def Obligations.UnspecifiedRegistersDoNotMatter : Prop :=
  ∀ (s t : State) (k : Nat), s.mode = .idle → sameOutside s t →
    sameOutcome (Claims.run k s) (Claims.run k t)

/-! ## The exits of a command -/

/-- `raise` and `complete` (60_exceptions.md R256, R257) as instructions. That any of the five failures and any length
act in every busy block, though the steps of a SEND raise TRANSPORT only and those of a RECV never do (R250), is the
model's choice of log entry 20. -/
def Obligations.ExitsWriteResults : Prop :=
  ∀ s : State, s.mode ≠ .idle →
    (∀ c, c ≠ .none → exec (.raise c) s = .next (failed c s)) ∧
    (∀ len, exec (.complete true len) s = .next (succeeded len s))

/-- The numeric codes of causes, modes, sender phases and nibble phases (30_encoding.md R101, R102), and `cmd_op`. -/
def Obligations.NumericCodes : Prop :=
  ([Cause.none, .timeout, .corrupt, .overflow, .checksum, .transport].map causeCode = [0, 1, 2, 3, 4, 5]) ∧
  ([Mode.idle, .send, .recv].map modeCode = [0, 1, 2]) ∧
  ([TxPhase.stx, .hi, .lo, .etx, .chi, .clo].map txPhaseCode = [0, 1, 2, 3, 4, 5]) ∧
  ([NibPhase.hi, .lo].map nibPhaseCode = [0, 1]) ∧
  (∀ len timeout, decodeCommand 0 len timeout = .send len ∧ decodeCommand 1 len timeout = .recv len timeout)

/-! ## The checksum unit -/

/-- CRC.BIT and CRC.BYTE (40_checksum.md R121, R122): the bit step, and the bit step with bit 0 of the data byte first,
bit 7 last. -/
def Obligations.CrcStepAnswers : Prop :=
  ∀ s : State,
    (∀ (acc : Byte) (bit : Bool), exec (.crcBit acc bit) s = .next { s with
      unitOut := .byte (if (acc.getLsbD 0 ^^ bit) = true then (acc >>> 1) ^^^ 0x8C else acc >>> 1) }) ∧
    (∀ acc d : Byte, exec (.crcByte acc d) s = .next { s with
      unitOut := .byte (crcBit (crcBit (crcBit (crcBit (crcBit (crcBit (crcBit (crcBit acc (d.getLsbD 0))
        (d.getLsbD 1)) (d.getLsbD 2)) (d.getLsbD 3)) (d.getLsbD 4)) (d.getLsbD 5)) (d.getLsbD 6)) (d.getLsbD 7)) })

/-- CRC.INIT and CRC.SEQ (40_checksum.md R120, R123): the fold of CRC.BYTE over at most 255 bytes, in ascending order.
The starting value 0x00 is the spec's own decision (92_eei_decisions.md D4). -/
def Obligations.CrcSeqAnswer : Prop :=
  ∀ s : State,
    exec .crcInit s = .next { s with unitOut := .byte 0x00 } ∧
    ∀ p : List Byte, p.length ≤ 255 →
      exec (.crcSeq p) s = .next { s with unitOut := .byte (p.foldl (fun acc d => crcByte acc d) 0x00) }

/-- The bit loop with the data byte indexed and the source's loop with the data byte shifted are one function
(40_checksum.md R122). -/
def Obligations.CrcShiftFormEqual : Prop :=
  ∀ acc d : Byte, crcByteShift 8 acc d = crcByte acc d

/-- CRC.BYTE depends on `acc ^ d` only, and is linear over exclusive-or (40_checksum.md R125, R126 (c), derived by the
spec). -/
def Obligations.CrcTableAndLinear : Prop :=
  (∀ acc d : Byte, crcByte acc d = crcByte 0 (acc ^^^ d)) ∧
  (∀ a a' d d' : Byte, crcByte (a ^^^ a') (d ^^^ d') = crcByte a d ^^^ crcByte a' d')

/-- Payloads that differ only in their last byte have different checksums, and a sequence followed by its own checksum
has checksum 0x00 (40_checksum.md R126 (a), (b), derived by the spec). -/
def Obligations.CrcLastByte : Prop :=
  (∀ (p : List Byte) (d d' : Byte), crcSeq (p ++ [d]) = crcSeq (p ++ [d']) → d = d') ∧
  (∀ p : List Byte, crcSeq (p ++ [crcSeq p]) = 0)

/-! ## The codec -/

/-- ENC.NIB and ENC.BYTE (41_codec.md R140, R141). -/
def Obligations.EncoderAnswers : Prop :=
  ∀ s : State,
    (∀ n : Nibble, exec (.encNib n) s = .next { s with unitOut := .byte (n ++ (n ^^^ 0xF#4)) }) ∧
    (∀ b : Byte, exec (.encByte b) s = .next { s with
      unitOut := .pair (b.extractLsb' 4 4 ++ (b.extractLsb' 4 4 ^^^ 0xF#4)) (b.extractLsb' 0 4 ++ (b.extractLsb' 0 4 ^^^ 0xF#4)) })

/-- DEC.VALID, DEC.NIB and DEC.PAIR (41_codec.md R142, R143, R144). -/
def Obligations.DecoderAnswers : Prop :=
  ∀ s : State,
    (∀ w : Byte, exec (.decValid w) s = .next { s with
      unitOut := .bit (w.extractLsb' 4 4 == (w.extractLsb' 0 4 ^^^ 0xF#4)) }) ∧
    (∀ w : Byte, exec (.decNib w) s = .next { s with
      unitOut := .nibbleResult (if w.extractLsb' 4 4 = w.extractLsb' 0 4 ^^^ 0xF#4 then some (w.extractLsb' 4 4) else none) }) ∧
    (∀ w1 w2 : Byte, exec (.decPair w1 w2) s = .next { s with
      unitOut := .byteResult (if w1.extractLsb' 4 4 = w1.extractLsb' 0 4 ^^^ 0xF#4 ∧ w2.extractLsb' 4 4 = w2.extractLsb' 0 4 ^^^ 0xF#4 then
        some (w1.extractLsb' 4 4 ++ w2.extractLsb' 4 4) else none) })

/-- ENC.BYTE is a bijection between raw bytes and pairs of nibble codes, with inverse DEC.PAIR (41_codec.md R145,
derived by the spec). -/
def Obligations.PairRoundTrip : Prop :=
  (∀ b : Byte, decPair (encByte b).1 (encByte b).2 = some b) ∧
  (∀ w1 w2 b : Byte, decPair w1 w2 = some b → (w1, w2) = encByte b)

/-- The sixteen nibble codes of 30_encoding.md R93 and the four classes of wire bytes (R91): each value is in the class
its bits say, and 238 values are BAD (R94). The list of codes and the disjointness of the classes are derived by the
spec. -/
def Obligations.WireByteClasses : Prop :=
  (([0x0, 0x1, 0x2, 0x3, 0x4, 0x5, 0x6, 0x7, 0x8, 0x9, 0xA, 0xB, 0xC, 0xD, 0xE, 0xF] : List Nibble).map encNib =
    [0x0F, 0x1E, 0x2D, 0x3C, 0x4B, 0x5A, 0x69, 0x78, 0x87, 0x96, 0xA5, 0xB4, 0xC3, 0xD2, 0xE1, 0xF0]) ∧
  (∀ w : Byte, (classify w = .stx ↔ w = 0x02) ∧ (classify w = .etx ↔ w = 0x03) ∧
    (∀ n, classify w = .nib n ↔ w = n ++ (n ^^^ 0xF#4)) ∧
    (classify w = .bad ↔ w ≠ 0x02 ∧ w ≠ 0x03 ∧ w.extractLsb' 4 4 ≠ w.extractLsb' 0 4 ^^^ 0xF#4)) ∧
  ((List.range 256).filter (fun k => decide (classify (BitVec.ofNat 8 k) = .bad))).length = 238

/-! ## Decoding and encoding -/

/-- A few words written out from 30_encoding.md R92 to R97 and R101, and what they decode to. -/
def Obligations.DecodedSampleWords : Prop :=
  decode (.wire 0b00000010) = .ok .stx ∧
  decode (.wire 0b00000011) = .ok .etx ∧
  decode (.wire 0b01001011) = .ok .nib4 ∧
  decode (.wire 0b11110000) = .ok .nibF ∧
  decode (.wire 0b00011111) = .ok (.bad 0x1F) ∧
  decode (.pair 0b01001011 0b00011110) = .ok (.pair 0x41) ∧
  decode (.frame [0x02, 0x4B, 0x1E, 0x4B, 0x2D, 0x03, 0xA5, 0x5A]) = .ok (.frame [0x41, 0x42]) ∧
  decode (.command 0 2 0) = .ok (.send 2) ∧
  decode (.command 1 8 100) = .ok (.recv 8 100)

/-- Decode and encode agree: the bit pattern of every well-formed instruction that has one decodes to it, with every
operand at every value, a frame's payload included (30_encoding.md R91 to R97, R101). -/
def Obligations.DecodeInvertsEncode : Prop :=
  ∀ (i : Instr) (w : PortWord), i.wf = true → encode i = some w → decode w = .ok i

/-- And back: no two wire bytes, pairs or frames decode to one instruction, and what decodes is well-formed. A command's
bits come back but for `cmd_timeout` of a SEND, which is ignored (42_frame_sender.md R160). -/
def Obligations.EncodeInvertsDecode : Prop :=
  (∀ (w : PortWord) (i : Instr), decode w = .ok i → i.wf = true) ∧
  (∀ (w : Byte) (i : Instr), decode (.wire w) = .ok i → encode i = some (.wire w)) ∧
  (∀ (w1 w2 : Byte) (i : Instr), decode (.pair w1 w2) = .ok i → encode i = some (.pair w1 w2)) ∧
  (∀ (ws : List Byte) (i : Instr), decode (.frame ws) = .ok i → encode i = some (.frame ws)) ∧
  (∀ (op : BitVec 1) (len : Byte) (timeout : Time) (i : Instr), decode (.command op len timeout) = .ok i →
    encode i = some (.command op len (if op = 0 then 0 else timeout)))

/-! ## The host commands -/

/-- SEND accepted (42_frame_sender.md R160). `tx.cur` is unspecified (10_state.md R46), so nothing is said of it. -/
def Obligations.SendAccepted : Prop :=
  ∀ (s : State) (len : Byte), s.mode = .idle →
    ∃ t, exec (.send len) s = .next t ∧ t.mode = .send ∧ t.tx.len = len ∧ t.tx.idx = 0 ∧ t.tx.phase = .stx ∧
      t.tx.acc = 0x00 ∧ t.resOk = s.resOk ∧ t.resLen = s.resLen ∧ t.resCause = s.resCause ∧ t.rx = s.rx ∧
      t.pay = s.pay ∧ t.out = s.out ∧ t.env = s.env ∧ t.unitOut = s.unitOut

/-- RECV accepted (43_frame_receiver.md R200), with one sample of the clock (10_state.md R40). The registers R46 leaves
unspecified are not mentioned. -/
def Obligations.RecvAccepted : Prop :=
  ∀ (s : State) (max : Byte) (timeout : Time) (d : Nat) (ts : List Nat), s.mode = .idle → s.env.ticks = d :: ts →
    ∃ t, exec (.recv max timeout) s = .next t ∧ t.mode = .recv ∧ t.rx.maxlen = max ∧ t.rx.timeout = timeout ∧
      t.rx.t0 = BitVec.ofNat timeW (s.env.clock + d) ∧ t.rx.haveStx = false ∧
      t.resOk = s.resOk ∧ t.resLen = s.resLen ∧ t.resCause = s.resCause ∧ t.tx = s.tx ∧
      t.pay = s.pay ∧ t.out = s.out ∧ t.env = { s.env with clock := s.env.clock + d, ticks := ts } ∧
      t.unitOut = s.unitOut

/-- A command presented while the block is busy is not accepted and waits, with no effect on any register
(10_state.md R36, log entry 18). -/
def Obligations.BusyCommandWaits : Prop :=
  ∀ s : State, s.mode ≠ .idle →
    (∀ len, exec (.send len) s =
      .next { s with env := { s.env with host := .command 0 len 0 :: s.env.host } }) ∧
    (∀ max timeout, exec (.recv max timeout) s =
      .next { s with env := { s.env with host := .command 1 max timeout :: s.env.host } })

/-! ## The sender -/

/-- TX.STX (42_frame_sender.md R164). -/
def Obligations.TxStxStep : Prop :=
  ∀ (s : State) (r : Nat) (rest : List Nat), s.mode = .send → s.tx.phase = .stx → s.env.txAnswers = r :: rest →
    exec .txStx s =
      if r = 1 then
        .next { offered 0x02 r rest s with tx := { s.tx with phase := if s.tx.len = 0 then .etx else .hi } }
      else .next (failed .transport (offered 0x02 r rest s))

/-- TX.HI (42_frame_sender.md R162): the byte of PAY is read once, mixed into the checksum, and kept for TX.LO; all of
it happens before the write and stands when the write fails. -/
def Obligations.TxHiStep : Prop :=
  ∀ (s : State) (r : Nat) (rest : List Nat) (b : Byte), s.mode = .send → s.tx.phase = .hi →
    s.env.txAnswers = r :: rest → b = s.pay.read s.tx.idx.toNat →
    exec .txHi s =
      if r = 1 then
        .next { offered (encNib (hi4 b)) r rest s with
          tx := { s.tx with cur := b, acc := crcByte s.tx.acc b, phase := .lo } }
      else
        .next (failed .transport { offered (encNib (hi4 b)) r rest s with
          tx := { s.tx with cur := b, acc := crcByte s.tx.acc b } })

/-- TX.LO (42_frame_sender.md R163): the next byte, or the end marker; `tx.idx + 1` does not wrap. -/
def Obligations.TxLoStep : Prop :=
  ∀ (s : State) (r : Nat) (rest : List Nat), s.mode = .send → s.tx.phase = .lo → s.env.txAnswers = r :: rest →
    exec .txLo s =
      if r = 1 then
        if s.tx.idx.toNat + 1 < s.tx.len.toNat then
          .next { offered (encNib (lo4 s.tx.cur)) r rest s with
            tx := { s.tx with idx := BitVec.ofNat 8 (s.tx.idx.toNat + 1), phase := .hi } }
        else .next { offered (encNib (lo4 s.tx.cur)) r rest s with tx := { s.tx with phase := .etx } }
      else .next (failed .transport (offered (encNib (lo4 s.tx.cur)) r rest s))

/-- TX.ETX (42_frame_sender.md R165). -/
def Obligations.TxEtxStep : Prop :=
  ∀ (s : State) (r : Nat) (rest : List Nat), s.mode = .send → s.tx.phase = .etx → s.env.txAnswers = r :: rest →
    exec .txEtx s =
      if r = 1 then .next { offered 0x03 r rest s with tx := { s.tx with phase := .chi } }
      else .next (failed .transport (offered 0x03 r rest s))

/-- TX.CHI and TX.CLO (42_frame_sender.md R166, R167): the checksum, high nibble first; TX.CLO ends the command. -/
def Obligations.TxChecksumSteps : Prop :=
  ∀ (s : State) (r : Nat) (rest : List Nat), s.mode = .send → s.env.txAnswers = r :: rest →
    (s.tx.phase = .chi → exec .txChi s =
      if r = 1 then .next { offered (encNib (hi4 s.tx.acc)) r rest s with tx := { s.tx with phase := .clo } }
      else .next (failed .transport (offered (encNib (hi4 s.tx.acc)) r rest s))) ∧
    (s.tx.phase = .clo → exec .txClo s =
      if r = 1 then .next (succeeded 0 (offered (encNib (lo4 s.tx.acc)) r rest s))
      else .next (failed .transport (offered (encNib (lo4 s.tx.acc)) r rest s)))

/-- TX.FAIL and TX.DONE (42_frame_sender.md R168, R169). -/
def Obligations.TxOutcomes : Prop :=
  ∀ s : State, s.mode = .send →
    exec .txFail s = .next (failed .transport s) ∧
    (s.tx.phase = .clo → exec .txDone s = .next (succeeded 0 s))

/-- TX.STEP (42_frame_sender.md R161): it completes whenever the transport answers, offering exactly one byte, the one
of the current phase. -/
def Obligations.TxStepOffersOneByte : Prop :=
  ∀ (s : State) (r : Nat) (rest : List Nat), s.mode = .send → s.env.txAnswers = r :: rest →
    ∃ t w, exec .txStep s = .next t ∧ t.env = (offered w r rest s).env ∧
      (w = match s.tx.phase with
        | .stx => 0x02
        | .hi => encNib (hi4 (s.pay.read s.tx.idx.toNat))
        | .lo => encNib (lo4 s.tx.cur)
        | .etx => 0x03
        | .chi => encNib (hi4 s.tx.acc)
        | .clo => encNib (lo4 s.tx.acc)) ∧
      (r ≠ 1 → t.mode = .idle ∧ t.resOk = false ∧ t.resLen = 0 ∧ t.resCause = .transport)

/-- A whole SEND whose writes are all answered 1 (42_frame_sender.md R170, derived by the spec): after acceptance exactly
`2n + 4` steps, the bytes of `FRAME(PAY[0..n))` in order, and success. -/
def Obligations.SendDeliversFrame : Prop :=
  ∀ (s : State) (len : Byte) (timeout : Time) (acts : List HostAct) (rest : List Nat) (n : Nat),
    n = len.toNat → s.mode = .idle → s.env.host = .command 0 len timeout :: acts →
    s.env.txAnswers = List.replicate (2 * n + 4) 1 ++ rest →
    (∀ k, 0 < k → k < 1 + (2 * n + 4) → ∃ t, Claims.run k s = .next t ∧ t.mode = .send) ∧
    ∃ t : State, Claims.run (1 + (2 * n + 4)) s = .next t ∧
      t.mode = .idle ∧ t.resOk = true ∧ t.resLen = 0 ∧ t.resCause = .none ∧
      t.env = { s.env with
        host := acts
        txAnswers := rest
        txs := s.env.txs ++ (frameBytes (s.pay.firstBytes n)).map (fun w => ⟨w, 1⟩) } ∧
      t.pay = s.pay ∧ t.out = s.out ∧ t.rx = s.rx

/-- A SEND whose write number `k + 1` is the first not answered 1 (42_frame_sender.md R170, derived by the spec): it
ends with TRANSPORT at that write; what was offered is the frame's first `k + 1` bytes. -/
def Obligations.SendStopsAtFailedWrite : Prop :=
  ∀ (s : State) (len : Byte) (timeout : Time) (acts : List HostAct) (rest : List Nat) (n k r : Nat),
    n = len.toNat → s.mode = .idle → s.env.host = .command 0 len timeout :: acts → k < 2 * n + 4 → r ≠ 1 →
    s.env.txAnswers = List.replicate k 1 ++ r :: rest →
    ∃ (t : State) (w : Byte), Claims.run (1 + (k + 1)) s = .next t ∧
      t.mode = .idle ∧ t.resOk = false ∧ t.resLen = 0 ∧ t.resCause = .transport ∧
      (frameBytes (s.pay.firstBytes n))[k]? = some w ∧
      t.env.txs = s.env.txs ++ ((frameBytes (s.pay.firstBytes n)).take k).map (fun v => ⟨v, 1⟩) ++ [⟨w, r⟩] ∧
      t.env.txAnswers = rest

/-! ## The receiver's outcomes -/

/-- RX.SKIP and RX.WAIT change no register (43_frame_receiver.md R202, R203); elapsed time equal to the timeout still
waits. -/
def Obligations.RxSkipAndWait : Prop :=
  ∀ s : State, s.mode = .recv →
    (∀ w, w ≠ 0x02 → s.rx.haveStx = false → exec (.rxSkip w) s = .next s) ∧
    (∀ now : Time, (now - s.rx.t0).toNat ≤ s.rx.timeout.toNat → exec (.rxWait now) s = .next s)

/-- RX.TIMEOUT (43_frame_receiver.md R204), in every receiver state. -/
def Obligations.RxTimeoutStep : Prop :=
  ∀ (s : State) (now : Time), s.mode = .recv → s.rx.timeout.toNat < (now - s.rx.t0).toNat →
    exec (.rxTimeout now) s = .next (failed .timeout s)

/-- RX.STX (43_frame_receiver.md R205), in every receiver state: `rx.cur` and OUT are unchanged. -/
def Obligations.RxStxStep : Prop :=
  ∀ (s : State) (now : Time), s.mode = .recv →
    exec (.rxStx now) s = .next { s with rx := { s.rx with
      haveStx := true, haveEtx := false, phase := .hi, pos := 0, acc := 0x00, t0 := now } }

/-- RX.ETX and RX.NIBHI (43_frame_receiver.md R206, R207): one flag, whatever the nibble phase, also when it is set
already; and the held high nibble, in Collecting and Checksum-pending alike. -/
def Obligations.RxEtxAndNibhiSteps : Prop :=
  ∀ s : State, s.mode = .recv → s.rx.haveStx = true →
    exec .rxEtx s = .next { s with rx := { s.rx with haveEtx := true } } ∧
    (∀ n : Nibble, s.rx.phase = .hi →
      exec (.rxNibhi n) s = .next { s with rx := { s.rx with cur := 0#4 ++ n, phase := .lo } })

/-- RX.NIBLO (43_frame_receiver.md R212): the byte is assembled, then RX.CHK, RX.PAY or RX.OVF acts on it, tested in this
order; it completes in each ending. -/
def Obligations.RxNibloStep : Prop :=
  ∀ (s u : State) (n : Nibble), s.mode = .recv → s.rx.haveStx = true → s.rx.phase = .lo →
    u = { s with rx := { s.rx with cur := (s.rx.cur <<< 4) ||| (0#4 ++ n), phase := .hi } } →
    (exec (.rxNiblo n) s =
      if s.rx.haveEtx = true then exec .rxChk u
      else if s.rx.pos.toNat < s.rx.maxlen.toNat then exec .rxPay u
      else exec .rxOvf u) ∧
    ∃ t, exec (.rxNiblo n) s = .next t ∧ t.rx.phase = .hi ∧ t.rx.cur = s.rx.cur.extractLsb' 0 4 ++ n ∧
      t.env = s.env ∧ t.tx = s.tx ∧ t.pay = s.pay

/-- RX.PAY and RX.OVF (43_frame_receiver.md R208, R209): a byte that fits goes to the old `rx.pos`; for one that does not
nothing is written to OUT. RX.NIBLO selects them at `rx.phase` HI; that they act at LO too is the model's choice of log
entry 23. -/
def Obligations.RxPayAndOvfSteps : Prop :=
  ∀ s : State, s.mode = .recv → s.rx.haveStx = true → s.rx.haveEtx = false →
    (s.rx.pos.toNat < s.rx.maxlen.toNat →
      exec .rxPay s = .next { s with
        out := s.out.write s.rx.pos.toNat s.rx.cur
        rx := { s.rx with acc := crcByte s.rx.acc s.rx.cur, pos := BitVec.ofNat 8 (s.rx.pos.toNat + 1) } }) ∧
    (s.rx.maxlen.toNat ≤ s.rx.pos.toNat → exec .rxOvf s = .next (failed .overflow s))

/-- RX.CHK (43_frame_receiver.md R210). RX.NIBLO selects it at `rx.phase` HI; that it acts at LO too is the model's choice
of log entry 23. -/
def Obligations.RxChkStep : Prop :=
  ∀ s : State, s.mode = .recv → s.rx.haveStx = true → s.rx.haveEtx = true →
    exec .rxChk s = if s.rx.cur = s.rx.acc then .next (succeeded s.rx.pos s) else .next (failed .checksum s)

/-- RX.BAD (43_frame_receiver.md R211), at either nibble phase, before and after the end marker. -/
def Obligations.RxBadStep : Prop :=
  ∀ (s : State) (w : Byte), s.mode = .recv → s.rx.haveStx = true →
    w ≠ 0x02 → w ≠ 0x03 → w.extractLsb' 4 4 ≠ w.extractLsb' 0 4 ^^^ 0xF#4 →
    exec (.rxBad w) s = .next (failed .corrupt s)

/-- RX.POLL (43_frame_receiver.md R201): a ready byte beats the deadline and is consumed and acted on as its row says;
without a byte the deadline is tested. It completes in both cases. -/
def Obligations.RxPollStep : Prop :=
  ∀ (s : State) (d : Nat) (ts : List Nat), s.mode = .recv → s.env.ticks = d :: ts →
    (∀ c cs w ws, s.env.rxAvail = c :: cs → 0 < c → s.env.rxBytes = w :: ws →
      exec .rxPoll s = exec (decodeWire w) (polledByte d ts cs ws s) ∧ ∃ t, exec .rxPoll s = .next t) ∧
    (∀ cs, s.env.rxAvail = 0 :: cs →
      exec .rxPoll s =
        if s.rx.timeout.toNat < (BitVec.ofNat timeW (s.env.clock + d) - s.rx.t0).toNat then
          .next (failed .timeout (polledNothing d ts cs s))
        else .next (polledNothing d ts cs s))

/-! ## Wire bytes, pairs and frames as the receiver reads them -/

/-- The markers and BAD values (30_encoding.md R92, R94) in a receiving block: STX restarts the frame in every state,
the others are skipped in Idle, and after a start marker ETX sets its flag and a BAD value ends the command. -/
def Obligations.MarkersAndBadReceived : Prop :=
  ∀ s : State, s.mode = .recv →
    exec .stx s = .next { s with rx := { s.rx with
      haveStx := true, haveEtx := false, phase := .hi, pos := 0, acc := 0x00,
      t0 := BitVec.ofNat timeW s.env.clock } } ∧
    (s.rx.haveStx = false → exec .etx s = .next s) ∧
    (s.rx.haveStx = true → exec .etx s = .next { s with rx := { s.rx with haveEtx := true } }) ∧
    (∀ w, classify w = .bad →
      (s.rx.haveStx = false → exec (.bad w) s = .next s) ∧
      (s.rx.haveStx = true → exec (.bad w) s = .next (failed .corrupt s)))

/-- The sixteen nibble codes (30_encoding.md R93) in a receiving block: skipped in Idle, RX.NIBHI or RX.NIBLO with
their nibble after a start marker. -/
def Obligations.NibbleCodesReceived : Prop :=
  ∀ (s : State) (i : Instr) (n : Nibble), s.mode = .recv →
    (i, n) ∈ [(Instr.nib0, 0x0#4), (.nib1, 0x1#4), (.nib2, 0x2#4), (.nib3, 0x3#4), (.nib4, 0x4#4), (.nib5, 0x5#4),
      (.nib6, 0x6#4), (.nib7, 0x7#4), (.nib8, 0x8#4), (.nib9, 0x9#4), (.nibA, 0xA#4), (.nibB, 0xB#4),
      (.nibC, 0xC#4), (.nibD, 0xD#4), (.nibE, 0xE#4), (.nibF, 0xF#4)] →
    (∃ t, exec i s = .next t) ∧
    (s.rx.haveStx = false → exec i s = .next s) ∧
    (s.rx.haveStx = true → s.rx.phase = .hi →
      exec i s = .next { s with rx := { s.rx with cur := 0#4 ++ n, phase := .lo } }) ∧
    (s.rx.haveStx = true → s.rx.phase = .lo → exec i s = exec (.rxNiblo n) s)

/-- While the block does not receive, wire bytes stay in the transport, before what it already holds, and nothing else
changes (10_state.md R41, 43_frame_receiver.md R213; log entry 9). -/
def Obligations.UnreadBytesStay : Prop :=
  ∀ (s : State) (i : Instr) (ws : List Byte), s.mode ≠ .recv → i.wf = true →
    (∃ w, encode i = some (.wire w) ∧ ws = [w]) ∨ (∃ w1 w2, encode i = some (.pair w1 w2) ∧ ws = [w1, w2]) ∨
      encode i = some (.frame ws) →
    exec i s = .next { s with env := { s.env with rxBytes := ws ++ s.env.rxBytes } }

/-- A pair received on a pair boundary while collecting, with room (30_encoding.md R96; 43_frame_receiver.md R207,
R212, R208): its raw byte is appended. The receiver of the spec takes one byte a step, each with its own sample and
count; that PAIR is one instruction at the latest clock sample, with the environment unchanged, is the model's choice of
log entry 9. -/
def Obligations.PairAppendsByte : Prop :=
  ∀ (s : State) (b : Byte), s.mode = .recv → s.rx.haveStx = true → s.rx.haveEtx = false → s.rx.phase = .hi →
    s.rx.pos.toNat < s.rx.maxlen.toNat →
    exec (.pair b) s = .next { s with
      out := s.out.write s.rx.pos.toNat b
      rx := { s.rx with cur := b, acc := crcByte s.rx.acc b, pos := BitVec.ofNat 8 (s.rx.pos.toNat + 1) } }

/-- A frame that fits, received in ANY receiver state (30_encoding.md R97; 43_frame_receiver.md R215, derived by the
spec): success, the payload's length, and the payload in OUT; the rest of OUT is untouched. That FRAME is one instruction
at the latest clock sample, with the environment unchanged (no tick, count or byte is used), is the model's choice of log
entry 9; RecvDeliversFrame is the form of one byte a step. -/
def Obligations.FrameDeliversPayload : Prop :=
  ∀ (s : State) (p : List Byte), s.mode = .recv → s.out.wf = true → p.length ≤ s.rx.maxlen.toNat →
    ∃ t, exec (.frame p) s = .next t ∧ t.mode = .idle ∧ t.resOk = true ∧ t.resLen = BitVec.ofNat 8 p.length ∧
      t.resCause = .none ∧ t.out.firstBytes p.length = p ∧
      (∀ a, p.length ≤ a → t.out.read a = s.out.read a) ∧
      t.env = s.env ∧ t.tx = s.tx ∧ t.pay = s.pay ∧ t.rx.t0 = BitVec.ofNat timeW s.env.clock ∧
      t.rx.maxlen = s.rx.maxlen ∧ t.rx.timeout = s.rx.timeout

/-- A frame that does not fit (43_frame_receiver.md R209): OVERFLOW at the low nibble of the first byte that does not
fit; OUT keeps the bytes that did, and the rest of the frame stays in the transport. That FRAME is one instruction, which
puts its unread rest first in RXS and leaves the environment otherwise unchanged, is the model's choice of log
entry 9. -/
def Obligations.LongFrameOverflows : Prop :=
  ∀ (s : State) (p : List Byte), s.mode = .recv → s.out.wf = true → s.rx.maxlen.toNat < p.length → p.length ≤ 255 →
    ∃ t, exec (.frame p) s = .next t ∧ t.mode = .idle ∧ t.resOk = false ∧ t.resLen = 0 ∧ t.resCause = .overflow ∧
      t.out.firstBytes s.rx.maxlen.toNat = p.take s.rx.maxlen.toNat ∧
      (∀ a, s.rx.maxlen.toNat ≤ a → t.out.read a = s.out.read a) ∧
      t.env = { s.env with rxBytes := (frameBytes p).drop (2 * s.rx.maxlen.toNat + 3) ++ s.env.rxBytes }

/-! ## Whole receptions -/

/-- Round trip (43_frame_receiver.md R215, derived by the spec): a RECV fed any bytes without 0x02 and then a frame that
fits, every step finding a byte, takes one step a byte, delivers the payload, and leaves what follows in the
transport. -/
def Obligations.RecvDeliversFrame : Prop :=
  ∀ (s : State) (max : Byte) (timeout : Time) (acts : List HostAct) (d : Nat) (ts : List Nat)
    (g p rest : List Byte), s.mode = .idle → s.out.wf = true → s.env.host = .command 1 max timeout :: acts →
    s.env.ticks = d :: ts → s.env.rxBytes = g ++ frameBytes p ++ rest → (∀ w ∈ g, w ≠ 0x02) →
    p.length ≤ max.toNat → readySteps (g.length + (2 * p.length + 4)) ts s.env.rxAvail →
    ∃ t : State, Claims.run (1 + (g.length + (2 * p.length + 4))) s = .next t ∧
      t.mode = .idle ∧ t.resOk = true ∧ t.resLen = BitVec.ofNat 8 p.length ∧ t.resCause = .none ∧
      t.out.firstBytes p.length = p ∧ (∀ a, p.length ≤ a → t.out.read a = s.out.read a) ∧
      t.env.rxBytes = rest ∧ t.env.host = acts ∧ t.pay = s.pay ∧ t.tx = s.tx

/-- Error detection (43_frame_receiver.md R218, derived by the spec): one flipped bit of one non-marker byte of a frame
that fits, read from Idle with every step finding a byte, ends the command with CORRUPT at that byte. -/
def Obligations.FlippedBitEndsCorrupt : Prop :=
  ∀ (s : State) (p rest : List Byte) (j k : Nat) (w : Byte), s.mode = .recv → s.rx.haveStx = false → s.out.wf = true →
    p.length ≤ s.rx.maxlen.toNat → j ≠ 0 → j ≠ 2 * p.length + 1 → (frameBytes p)[j]? = some w → k < 8 →
    s.env.rxBytes = (frameBytes p).set j (w ^^^ (1 <<< k)) ++ rest →
    readySteps (j + 1) s.env.ticks s.env.rxAvail →
    ∃ t : State, Claims.run (j + 1) s = .next t ∧
      t.mode = .idle ∧ t.resOk = false ∧ t.resLen = 0 ∧ t.resCause = .corrupt ∧
      t.env.rxBytes = (frameBytes p).drop (j + 1) ++ rest

/-- The unaligned end marker and repeated end markers (43_frame_receiver.md R221, R206; derived by the spec): a payload,
then one nibble code, one or more end markers, and the code that completes the checksum, is accepted. -/
def Obligations.UnalignedEndMarkerAccepted : Prop :=
  ∀ (s : State) (p rest : List Byte) (m : Nat) (ws : List Byte), s.mode = .recv → s.out.wf = true →
    p.length ≤ s.rx.maxlen.toNat →
    ws = [0x02] ++ payloadBytes p ++ [encNib (hi4 (crcSeq p))] ++ List.replicate (m + 1) 0x03 ++
      [encNib (lo4 (crcSeq p))] →
    s.env.rxBytes = ws ++ rest → readySteps ws.length s.env.ticks s.env.rxAvail →
    ∃ t : State, Claims.run ws.length s = .next t ∧
      t.mode = .idle ∧ t.resOk = true ∧ t.resLen = BitVec.ofNat 8 p.length ∧ t.resCause = .none ∧
      t.out.firstBytes p.length = p ∧ t.env.rxBytes = rest

/-- Silence (43_frame_receiver.md R217, derived by the spec): a RECV whose steps all find no byte waits while the time
since the last deadline reset does not exceed the timeout, and ends with TIMEOUT at the first sample that does. -/
def Obligations.SilenceTimesOut : Prop :=
  ∀ (s : State) (t0 d : Nat) (ds ts cs : List Nat), s.mode = .recv → s.rx.t0 = BitVec.ofNat timeW t0 →
    t0 ≤ s.env.clock → s.env.ticks = ds ++ d :: ts → s.env.rxAvail = List.replicate (ds.length + 1) 0 ++ cs →
    s.env.clock + ds.sum - t0 ≤ s.rx.timeout.toNat → s.rx.timeout.toNat < s.env.clock + ds.sum + d - t0 →
    s.env.clock + ds.sum + d - t0 < 2 ^ timeW →
    (∃ u : State, Claims.run ds.length s = .next u ∧ u.mode = .recv ∧ u.rx = s.rx) ∧
    ∃ u : State, Claims.run (ds.length + 1) s = .next u ∧
      u.mode = .idle ∧ u.resOk = false ∧ u.resLen = 0 ∧ u.resCause = .timeout ∧ u.rx = s.rx ∧ u.out = s.out

/-- A RECV need not end (70_reset_and_hazards.md R314, derived by the spec): in Idle, as long as every step finds a byte
and none is 0x02, it goes on, however late it is, and its registers do not change. -/
def Obligations.NoiseNeverEndsReceive : Prop :=
  ∀ (s : State) (k : Nat), s.mode = .recv → s.rx.haveStx = false → k ≤ s.env.rxBytes.length →
    (∀ w ∈ s.env.rxBytes.take k, w ≠ 0x02) → readySteps k s.env.ticks s.env.rxAvail →
    ∃ t : State, Claims.run k s = .next t ∧
      t.mode = .recv ∧ t.rx = s.rx ∧ t.out = s.out ∧ t.env.rxBytes = s.env.rxBytes.drop k

/-! ## Where the model stops -/

/-- A transport or clock that never answers leaves the block without a further step (93_implementation_defined.md U8,
42_frame_sender.md R171; log entry 4). -/
def Obligations.NoAnswerIsStuck : Prop :=
  ∀ s : State,
    (s.mode = .send → s.env.txAnswers = [] →
      step s = .fault .txWriteNoAnswer ∧ exec .txStep s = .fault .txWriteNoAnswer) ∧
    (s.mode = .recv → s.env.ticks = [] → exec .rxPoll s = .fault .clockNoAnswer) ∧
    (s.mode = .recv → s.env.ticks ≠ [] → s.env.rxAvail = [] → exec .rxPoll s = .fault .rxAvailNoAnswer) ∧
    (∀ c cs, s.mode = .recv → s.env.ticks ≠ [] → s.env.rxAvail = c :: cs → 0 < c → s.env.rxBytes = [] →
      exec .rxPoll s = .fault .rxReadNoAnswer) ∧
    (∀ max timeout, s.mode = .idle → s.env.ticks = [] → exec (.recv max timeout) s = .fault .clockNoAnswer)

/-- A step, `raise` or `complete` in a state that does not select it is refused by name: a step of the unit that does not
run, a sender step of another phase, a receiver step whose condition of 10_state.md R42 and 43_frame_receiver.md R201 to
R212 on `rx.have_stx`, `rx.have_etx`, `rx.phase`, `rx.pos` or the elapsed time does not hold, an exit while no command
runs. The spec gives these no rule; that they are refused is the model's choice (log entries 10 and 20). -/
def Obligations.UnselectedStepsRefused : Prop :=
  ∀ s : State,
    (s.mode ≠ .send → ∀ i ∈ [Instr.txStep, .txStx, .txHi, .txLo, .txEtx, .txChi, .txClo, .txFail, .txDone],
      exec i s = .refused .notSelected) ∧
    (s.mode = .send → ∀ (i : Instr) (p : TxPhase), (i, p) ∈ [(Instr.txStx, TxPhase.stx), (.txHi, .hi), (.txLo, .lo),
      (.txEtx, .etx), (.txChi, .chi), (.txClo, .clo), (.txDone, .clo)] → s.tx.phase ≠ p →
      exec i s = .refused .notSelected) ∧
    (s.mode ≠ .recv → ∀ (w : Byte) (now : Time) (n : Nibble), ∀ i ∈ [Instr.rxPoll, .rxSkip w, .rxWait now,
      .rxTimeout now, .rxStx now, .rxEtx, .rxNibhi n, .rxNiblo n, .rxPay, .rxOvf, .rxChk, .rxBad w],
      exec i s = .refused .notSelected) ∧
    (s.mode = .recv → ∀ now : Time,
      (s.rx.timeout.toNat < (now - s.rx.t0).toNat → exec (.rxWait now) s = .refused .notSelected) ∧
      ((now - s.rx.t0).toNat ≤ s.rx.timeout.toNat → exec (.rxTimeout now) s = .refused .notSelected)) ∧
    (s.mode = .recv → s.rx.haveStx = false → ∀ (w : Byte) (n : Nibble), ∀ i ∈ [Instr.rxEtx, .rxNibhi n, .rxNiblo n,
      .rxPay, .rxOvf, .rxChk, .rxBad w], exec i s = .refused .notSelected) ∧
    (s.mode = .recv → s.rx.haveStx = true →
      (∀ w, exec (.rxSkip w) s = .refused .notSelected) ∧
      (∀ n, s.rx.phase = .lo → exec (.rxNibhi n) s = .refused .notSelected) ∧
      (∀ n, s.rx.phase = .hi → exec (.rxNiblo n) s = .refused .notSelected) ∧
      (s.rx.haveEtx = true ∨ s.rx.maxlen.toNat ≤ s.rx.pos.toNat → exec .rxPay s = .refused .notSelected) ∧
      (s.rx.haveEtx = true ∨ s.rx.pos.toNat < s.rx.maxlen.toNat → exec .rxOvf s = .refused .notSelected) ∧
      (s.rx.haveEtx = false → exec .rxChk s = .refused .notSelected)) ∧
    (s.mode = .idle → (∀ c, exec (.raise c) s = .refused .notSelected) ∧
      ∀ ok len, exec (.complete ok len) s = .refused .notSelected)

/-! ## Operands outside their row's range -/

/-- An operand outside the range its row gives ends no run (log entry 19, the model's choice): the value the spec does not
state there is some value, which draws one free value, and every other effect is as the rules say. CRC.SEQ and FRAME of
more than 255 bytes (40_checksum.md R123, 30_encoding.md R97), `raise NONE` (60_exceptions.md R250, R256), `complete` with
`ok = 0` (R257), BAD with a byte of another class (30_encoding.md R94), RX.SKIP of 0x02 and RX.BAD of a byte of another
class (43_frame_receiver.md R202, R211). A frame of more than 255 bytes never reaches its checksum: no buffer holds
it. -/
def Obligations.OperandsOutsideRangeRun : Prop :=
  ∀ s : State,
    (∀ p : List Byte, 255 < p.length →
      ∃ v, exec (.crcSeq p) s = .next { s with unitOut := .byte v, freeDraws := s.freeDraws + 1 }) ∧
    (s.mode ≠ .idle →
      (∃ c, exec (.raise .none) s = .next { failed c s with freeDraws := s.freeDraws + 1 }) ∧
      ∀ len, exec (.complete false len) s = .next (succeeded len s)) ∧
    (∀ w, exec (.bad w) s = exec (decodeWire w) s) ∧
    (s.mode = .recv → s.rx.haveStx = false → exec (.rxSkip 0x02) s = .next s) ∧
    (s.mode = .recv → s.rx.haveStx = true → ∀ w, classify w ≠ .bad → exec (.rxBad w) s = .next (failed .corrupt s)) ∧
    (∀ p : List Byte, 255 < p.length → s.mode ≠ .recv → ∃ c, exec (.frame p) s = .next { s with
      env := { s.env with rxBytes := [0x02] ++ payloadBytes p ++ [0x03] ++ pairBytes c ++ s.env.rxBytes }
      freeDraws := s.freeDraws + 1 }) ∧
    (∀ p : List Byte, 255 < p.length → s.mode = .recv → s.out.wf = true →
      ∃ t c, exec (.frame p) s = .next t ∧ t.mode = .idle ∧ t.resOk = false ∧ t.resLen = 0 ∧ t.resCause = .overflow ∧
        t.out.firstBytes s.rx.maxlen.toNat = p.take s.rx.maxlen.toNat ∧
        (∀ a, s.rx.maxlen.toNat ≤ a → t.out.read a = s.out.read a) ∧
        t.env = { s.env with
          rxBytes := ([0x02] ++ payloadBytes p ++ [0x03] ++ pairBytes c).drop (2 * s.rx.maxlen.toNat + 3) ++
            s.env.rxBytes } ∧
        t.tx = s.tx ∧ t.pay = s.pay ∧ t.unitOut = s.unitOut ∧ t.freeDraws = s.freeDraws + 1)
end

