-- ==== Sys2Proof/Laws/Codec.lean ====
section
/-!
SUPPORT. The small laws of the checksum unit and of the codec that the other proofs cite.
-/

namespace Sys2Proof.Machine

@[simp] theorem crcSeq_nil : crcSeq [] = Config.crcInit := rfl

/-- The running form of CRC.SEQ (40_checksum.md R123). -/
@[simp] theorem crcSeq_append (p : List Byte) (d : Byte) : crcSeq (p ++ [d]) = crcByte (crcSeq p) d := by
  simp [crcSeq]

@[simp] theorem classify_stx : classify Config.stx = .stx := by decide

@[simp] theorem classify_etx : classify Config.etx = .etx := by decide

/-- A nibble code is classified as its nibble (30_encoding.md R91, R93). -/
@[simp] theorem classify_encNib (n : Nibble) : classify (encNib n) = .nib n := by
  revert n; decide

@[simp] theorem decNib_encNib (n : Nibble) : decNib (encNib n) = some n := by
  revert n; decide

@[simp] theorem joinNibbles_hi4_lo4 (b : Byte) : joinNibbles (hi4 b) (lo4 b) = b := by
  revert b; decide

@[simp] theorem decPair_encByte (b : Byte) : decPair (encByte b).1 (encByte b).2 = some b := by
  simp [decPair, encByte]

/-- The assembly of RX.NIBHI and RX.NIBLO is that of DEC.PAIR (43_frame_receiver.md R212). -/
@[simp] theorem join_held (n m : Nibble) : (n.setWidth 8 <<< 4) ||| m.setWidth 8 = joinNibbles n m := rfl

@[simp] theorem classify_eq_stx {w : Byte} : classify w = .stx ↔ w = Config.stx := by
  revert w; decide

@[simp] theorem classify_eq_etx {w : Byte} : classify w = .etx ↔ w = Config.etx := by
  revert w; decide

@[simp] theorem classify_eq_nib {w : Byte} {n : Nibble} : classify w = .nib n ↔ w = encNib n := by
  constructor
  · revert w n; decide
  · rintro rfl; exact classify_encNib n

/-- The wire bytes of the layout R97, whatever the checksum byte: two markers, two codes for each byte. -/
theorem frameWith_eq (c : Byte) (p : List Byte) :
    frameWith c p = Config.stx :: (payloadBytes p ++ [Config.etx, encNib (hi4 c), encNib (lo4 c)]) := by
  simp [frameWith, pairBytes, encByte]

theorem frameBytes_eq (p : List Byte) : frameBytes p = frameWith (crcSeq p) p := rfl

@[simp] theorem payloadBytes_nil : payloadBytes [] = [] := rfl

@[simp] theorem payloadBytes_cons (b : Byte) (p : List Byte) :
    payloadBytes (b :: p) = (encByte b).1 :: (encByte b).2 :: payloadBytes p := rfl

theorem payloadBytes_append (p q : List Byte) : payloadBytes (p ++ q) = payloadBytes p ++ payloadBytes q := by
  simp [payloadBytes]

@[simp] theorem payloadBytes_length (p : List Byte) : (payloadBytes p).length = 2 * p.length := by
  induction p with
  | nil => rfl
  | cons b p ih => simp [ih]; omega

end Sys2Proof.Machine
end

