-- ==== Sys2Proof/Laws/Memory.lean ====
section
/-!
SUPPORT. The laws of the host memories: a read after a write, and the canonical form, which every operation keeps.
-/

namespace Sys2Proof.Machine

@[simp] theorem Memory.read_nil (a : Nat) : Memory.read [] a = Memory.unlisted := rfl

/-- Below the first address of a canonical memory nothing is listed. -/
theorem Memory.read_below {m : Memory} {lo a : Nat} (h : m.wfFrom lo = true) (ha : a < lo) :
    m.read a = Memory.unlisted := by
  induction m generalizing lo with
  | nil => rfl
  | cons c m ih =>
    obtain ⟨k, v⟩ := c
    simp only [Memory.wfFrom, Bool.and_eq_true, decide_eq_true_eq] at h
    have hk : k ≠ a := by omega
    simp only [Memory.read, hk, if_false]
    exact ih h.2 (by omega)

theorem Memory.wfFrom_mono {m : Memory} {lo lo' : Nat} (h : m.wfFrom lo = true) (hl : lo' ≤ lo) :
    m.wfFrom lo' = true := by
  cases m with
  | nil => rfl
  | cons c m =>
    obtain ⟨k, v⟩ := c
    simp only [Memory.wfFrom, Bool.and_eq_true, decide_eq_true_eq] at h ⊢
    exact ⟨⟨⟨by omega, h.1.1.2⟩, h.1.2⟩, h.2⟩

/-- A write keeps the canonical form. -/
theorem Memory.write_wfFrom {m : Memory} {lo a : Nat} (v : Byte) (h : m.wfFrom lo = true) (hl : lo ≤ a)
    (ha : a < 256) : (m.write a v).wfFrom lo = true := by
  induction m generalizing lo with
  | nil =>
    by_cases hv : v = Memory.unlisted <;> simp [Memory.write, Memory.wfFrom, hv, hl, ha]
  | cons c m ih =>
    obtain ⟨k, w⟩ := c
    have h' := h
    simp only [Memory.wfFrom, Bool.and_eq_true, decide_eq_true_eq] at h
    obtain ⟨⟨⟨h1, h2⟩, h3⟩, h4⟩ := h
    simp only [Memory.write]
    by_cases hak : a < k
    · rw [if_pos hak]
      by_cases hv : v = Memory.unlisted
      · rw [if_pos hv]; exact h'
      · rw [if_neg hv]
        simp [Memory.wfFrom, hv, hl, ha, h2, h3, h4, Nat.succ_le_of_lt hak]
    · rw [if_neg hak]
      by_cases hk : a = k
      · rw [if_pos hk]
        by_cases hv : v = Memory.unlisted
        · rw [if_pos hv]; exact Memory.wfFrom_mono h4 (by omega)
        · rw [if_neg hv]
          subst hk
          simp [Memory.wfFrom, hv, hl, ha, h4]
      · rw [if_neg hk]
        simp only [Memory.wfFrom, Bool.and_eq_true, decide_eq_true_eq]
        exact ⟨⟨⟨h1, h2⟩, h3⟩, ih h4 (by omega)⟩

theorem Memory.write_wf {m : Memory} {a : Nat} (v : Byte) (h : m.wf = true) (ha : a < 256) :
    (m.write a v).wf = true :=
  Memory.write_wfFrom v h (Nat.zero_le a) ha

/-- A write leaves every other address alone. -/
theorem Memory.read_write_ne (m : Memory) {a b : Nat} (v : Byte) (h : b ≠ a) :
    (m.write a v).read b = m.read b := by
  induction m with
  | nil =>
    by_cases hv : v = Memory.unlisted <;> simp [Memory.write, Memory.read, hv, Ne.symm h]
  | cons c m ih =>
    obtain ⟨k, w⟩ := c
    simp only [Memory.write]
    by_cases hak : a < k
    · rw [if_pos hak]
      by_cases hv : v = Memory.unlisted
      · rw [if_pos hv]
      · rw [if_neg hv]; simp [Memory.read, Ne.symm h]
    · rw [if_neg hak]
      by_cases hk : a = k
      · rw [if_pos hk]
        subst hk
        by_cases hv : v = Memory.unlisted
        · rw [if_pos hv]; simp [Memory.read, Ne.symm h]
        · rw [if_neg hv]; simp [Memory.read, Ne.symm h]
      · rw [if_neg hk]
        simp only [Memory.read, ih]

/-- A read after a write to the same address gives the value written. -/
theorem Memory.read_write_same {m : Memory} {lo a : Nat} (v : Byte) (h : m.wfFrom lo = true) :
    (m.write a v).read a = v := by
  induction m generalizing lo with
  | nil =>
    by_cases hv : v = Memory.unlisted <;> simp [Memory.write, Memory.read, hv]
  | cons c m ih =>
    obtain ⟨k, w⟩ := c
    have h' := h
    simp only [Memory.wfFrom, Bool.and_eq_true, decide_eq_true_eq] at h
    simp only [Memory.write]
    by_cases hak : a < k
    · rw [if_pos hak]
      by_cases hv : v = Memory.unlisted
      · rw [if_pos hv, hv]
        have hk : k ≠ a := by omega
        simp only [Memory.read, hk, if_false]
        exact Memory.read_below h.2 (by omega)
      · rw [if_neg hv]; simp [Memory.read]
    · rw [if_neg hak]
      by_cases hk : a = k
      · rw [if_pos hk]
        by_cases hv : v = Memory.unlisted
        · rw [if_pos hv, hv]; exact Memory.read_below h.2 (by omega)
        · rw [if_neg hv]; simp [Memory.read]
      · rw [if_neg hk]
        simp only [Memory.read, Ne.symm hk, if_false]
        exact ih h.2

@[simp] theorem Memory.firstBytes_zero (m : Memory) : m.firstBytes 0 = [] := rfl

@[simp] theorem Memory.firstBytes_length (m : Memory) (n : Nat) : (m.firstBytes n).length = n := by
  simp [Memory.firstBytes]

theorem Memory.firstBytes_succ (m : Memory) (n : Nat) :
    m.firstBytes (n + 1) = m.firstBytes n ++ [m.read n] := by
  simp [Memory.firstBytes, List.range_succ]

/-- A write at or above `n` leaves the first `n` bytes alone. -/
theorem Memory.firstBytes_write {m : Memory} {n a : Nat} (v : Byte) (h : n ≤ a) :
    (m.write a v).firstBytes n = m.firstBytes n := by
  apply List.map_congr_left
  intro b hb
  exact Memory.read_write_ne m v (by have := List.mem_range.mp hb; omega)

/-- Appending at position `n` appends to the first `n` bytes. -/
theorem Memory.firstBytes_append {m : Memory} {n : Nat} (v : Byte) (h : m.wf = true) :
    (m.write n v).firstBytes (n + 1) = m.firstBytes n ++ [v] := by
  rw [Memory.firstBytes_succ, Memory.firstBytes_write v (Nat.le_refl n), Memory.read_write_same v h]

theorem reset_memories_wf : State.reset.pay.wf = true ∧ State.reset.out.wf = true := ⟨rfl, rfl⟩

end Sys2Proof.Machine
end

