-- ==== Sys2Proof/Laws/State.lean ====
section
/-!
SUPPORT. One lemma per field per update of the state, true by definition, for the simp set: no later proof unfolds a
record update.
-/

namespace Sys2Proof.Machine

/-! ### raise -/

@[simp] theorem raise_mode (c : Cause) (s : State) : (raise c s).mode = .idle := rfl
@[simp] theorem raise_resOk (c : Cause) (s : State) : (raise c s).resOk = false := rfl
@[simp] theorem raise_resLen (c : Cause) (s : State) : (raise c s).resLen = 0 := rfl
@[simp] theorem raise_resCause (c : Cause) (s : State) : (raise c s).resCause = c := rfl
@[simp] theorem raise_tx (c : Cause) (s : State) : (raise c s).tx = s.tx := rfl
@[simp] theorem raise_rx (c : Cause) (s : State) : (raise c s).rx = s.rx := rfl
@[simp] theorem raise_pay (c : Cause) (s : State) : (raise c s).pay = s.pay := rfl
@[simp] theorem raise_out (c : Cause) (s : State) : (raise c s).out = s.out := rfl
@[simp] theorem raise_env (c : Cause) (s : State) : (raise c s).env = s.env := rfl
@[simp] theorem raise_unitOut (c : Cause) (s : State) : (raise c s).unitOut = s.unitOut := rfl
@[simp] theorem raise_freeDraws (c : Cause) (s : State) : (raise c s).freeDraws = s.freeDraws := rfl

/-! ### complete -/

@[simp] theorem complete_mode (len : Byte) (s : State) : (complete len s).mode = .idle := rfl
@[simp] theorem complete_resOk (len : Byte) (s : State) : (complete len s).resOk = true := rfl
@[simp] theorem complete_resLen (len : Byte) (s : State) : (complete len s).resLen = len := rfl
@[simp] theorem complete_resCause (len : Byte) (s : State) : (complete len s).resCause = .none := rfl
@[simp] theorem complete_tx (len : Byte) (s : State) : (complete len s).tx = s.tx := rfl
@[simp] theorem complete_rx (len : Byte) (s : State) : (complete len s).rx = s.rx := rfl
@[simp] theorem complete_pay (len : Byte) (s : State) : (complete len s).pay = s.pay := rfl
@[simp] theorem complete_out (len : Byte) (s : State) : (complete len s).out = s.out := rfl
@[simp] theorem complete_env (len : Byte) (s : State) : (complete len s).env = s.env := rfl
@[simp] theorem complete_unitOut (len : Byte) (s : State) : (complete len s).unitOut = s.unitOut := rfl
@[simp] theorem complete_freeDraws (len : Byte) (s : State) : (complete len s).freeDraws = s.freeDraws := rfl

/-! ### drew, raiseUnstated -/

@[simp] theorem drew_mode (n : Nat) (s : State) : (drew n s).mode = s.mode := rfl
@[simp] theorem drew_resOk (n : Nat) (s : State) : (drew n s).resOk = s.resOk := rfl
@[simp] theorem drew_resLen (n : Nat) (s : State) : (drew n s).resLen = s.resLen := rfl
@[simp] theorem drew_resCause (n : Nat) (s : State) : (drew n s).resCause = s.resCause := rfl
@[simp] theorem drew_tx (n : Nat) (s : State) : (drew n s).tx = s.tx := rfl
@[simp] theorem drew_rx (n : Nat) (s : State) : (drew n s).rx = s.rx := rfl
@[simp] theorem drew_pay (n : Nat) (s : State) : (drew n s).pay = s.pay := rfl
@[simp] theorem drew_out (n : Nat) (s : State) : (drew n s).out = s.out := rfl
@[simp] theorem drew_env (n : Nat) (s : State) : (drew n s).env = s.env := rfl
@[simp] theorem drew_unitOut (n : Nat) (s : State) : (drew n s).unitOut = s.unitOut := rfl
@[simp] theorem drew_freeDraws (n : Nat) (s : State) : (drew n s).freeDraws = s.freeDraws + n := rfl

/-- `raise NONE` is a failure with some cause, and one free value is drawn. -/
theorem raiseUnstated_cases (s : State) : ∃ c, raiseUnstated s = drew 1 (raise c s) := ⟨_, rfl⟩

/-! ### sendStart -/

@[simp] theorem sendStart_mode (len : Byte) (s : State) : (sendStart len s).mode = .send := rfl
@[simp] theorem sendStart_resOk (len : Byte) (s : State) : (sendStart len s).resOk = s.resOk := rfl
@[simp] theorem sendStart_resLen (len : Byte) (s : State) : (sendStart len s).resLen = s.resLen := rfl
@[simp] theorem sendStart_resCause (len : Byte) (s : State) : (sendStart len s).resCause = s.resCause := rfl
@[simp] theorem sendStart_tx (len : Byte) (s : State) :
    (sendStart len s).tx = ⟨.stx, 0, len, Config.freeByte s.freeDraws, Config.crcInit⟩ := rfl
@[simp] theorem sendStart_rx (len : Byte) (s : State) : (sendStart len s).rx = s.rx := rfl
@[simp] theorem sendStart_pay (len : Byte) (s : State) : (sendStart len s).pay = s.pay := rfl
@[simp] theorem sendStart_out (len : Byte) (s : State) : (sendStart len s).out = s.out := rfl
@[simp] theorem sendStart_env (len : Byte) (s : State) : (sendStart len s).env = s.env := rfl
@[simp] theorem sendStart_unitOut (len : Byte) (s : State) : (sendStart len s).unitOut = s.unitOut := rfl
@[simp] theorem sendStart_freeDraws (len : Byte) (s : State) : (sendStart len s).freeDraws = s.freeDraws + 1 := rfl

/-! ### recvStart -/

@[simp] theorem recvStart_mode (max : Byte) (timeout : Time) (s : State) :
    (recvStart max timeout s).mode = .recv := rfl
@[simp] theorem recvStart_resOk (max : Byte) (timeout : Time) (s : State) :
    (recvStart max timeout s).resOk = s.resOk := rfl
@[simp] theorem recvStart_resLen (max : Byte) (timeout : Time) (s : State) :
    (recvStart max timeout s).resLen = s.resLen := rfl
@[simp] theorem recvStart_resCause (max : Byte) (timeout : Time) (s : State) :
    (recvStart max timeout s).resCause = s.resCause := rfl
@[simp] theorem recvStart_tx (max : Byte) (timeout : Time) (s : State) : (recvStart max timeout s).tx = s.tx := rfl
@[simp] theorem recvStart_pay (max : Byte) (timeout : Time) (s : State) : (recvStart max timeout s).pay = s.pay := rfl
@[simp] theorem recvStart_out (max : Byte) (timeout : Time) (s : State) : (recvStart max timeout s).out = s.out := rfl
@[simp] theorem recvStart_env (max : Byte) (timeout : Time) (s : State) : (recvStart max timeout s).env = s.env := rfl
@[simp] theorem recvStart_unitOut (max : Byte) (timeout : Time) (s : State) :
    (recvStart max timeout s).unitOut = s.unitOut := rfl
@[simp] theorem recvStart_freeDraws (max : Byte) (timeout : Time) (s : State) :
    (recvStart max timeout s).freeDraws = s.freeDraws + 3 := rfl

/-! ### powerOnReset -/

@[simp] theorem powerOnReset_mode (s : State) : (powerOnReset s).mode = .idle := rfl
@[simp] theorem powerOnReset_resOk (s : State) : (powerOnReset s).resOk = false := rfl
@[simp] theorem powerOnReset_resLen (s : State) : (powerOnReset s).resLen = 0 := rfl
@[simp] theorem powerOnReset_resCause (s : State) : (powerOnReset s).resCause = .none := rfl
@[simp] theorem powerOnReset_pay (s : State) : (powerOnReset s).pay = s.pay := rfl
@[simp] theorem powerOnReset_out (s : State) : (powerOnReset s).out = s.out := rfl
@[simp] theorem powerOnReset_env (s : State) : (powerOnReset s).env = s.env := rfl
@[simp] theorem powerOnReset_unitOut (s : State) : (powerOnReset s).unitOut = s.unitOut := rfl
@[simp] theorem powerOnReset_freeDraws (s : State) : (powerOnReset s).freeDraws = s.freeDraws + 8 := rfl

/-! ### logOffer -/

@[simp] theorem logOffer_mode (w : Byte) (r : Nat) (rest : List Nat) (s : State) :
    (logOffer w r rest s).mode = s.mode := rfl
@[simp] theorem logOffer_resOk (w : Byte) (r : Nat) (rest : List Nat) (s : State) :
    (logOffer w r rest s).resOk = s.resOk := rfl
@[simp] theorem logOffer_resLen (w : Byte) (r : Nat) (rest : List Nat) (s : State) :
    (logOffer w r rest s).resLen = s.resLen := rfl
@[simp] theorem logOffer_resCause (w : Byte) (r : Nat) (rest : List Nat) (s : State) :
    (logOffer w r rest s).resCause = s.resCause := rfl
@[simp] theorem logOffer_tx (w : Byte) (r : Nat) (rest : List Nat) (s : State) :
    (logOffer w r rest s).tx = s.tx := rfl
@[simp] theorem logOffer_rx (w : Byte) (r : Nat) (rest : List Nat) (s : State) :
    (logOffer w r rest s).rx = s.rx := rfl
@[simp] theorem logOffer_pay (w : Byte) (r : Nat) (rest : List Nat) (s : State) :
    (logOffer w r rest s).pay = s.pay := rfl
@[simp] theorem logOffer_out (w : Byte) (r : Nat) (rest : List Nat) (s : State) :
    (logOffer w r rest s).out = s.out := rfl
@[simp] theorem logOffer_env (w : Byte) (r : Nat) (rest : List Nat) (s : State) :
    (logOffer w r rest s).env = { s.env with txs := s.env.txs ++ [⟨w, r⟩], txAnswers := rest } := rfl
@[simp] theorem logOffer_unitOut (w : Byte) (r : Nat) (rest : List Nat) (s : State) :
    (logOffer w r rest s).unitOut = s.unitOut := rfl
@[simp] theorem logOffer_freeDraws (w : Byte) (r : Nat) (rest : List Nat) (s : State) :
    (logOffer w r rest s).freeDraws = s.freeDraws := rfl

/-! ### waitAtPort -/

@[simp] theorem waitAtPort_mode (op : BitVec 1) (len : Byte) (t : Time) (s : State) :
    (waitAtPort op len t s).mode = s.mode := rfl
@[simp] theorem waitAtPort_resOk (op : BitVec 1) (len : Byte) (t : Time) (s : State) :
    (waitAtPort op len t s).resOk = s.resOk := rfl
@[simp] theorem waitAtPort_resLen (op : BitVec 1) (len : Byte) (t : Time) (s : State) :
    (waitAtPort op len t s).resLen = s.resLen := rfl
@[simp] theorem waitAtPort_resCause (op : BitVec 1) (len : Byte) (t : Time) (s : State) :
    (waitAtPort op len t s).resCause = s.resCause := rfl
@[simp] theorem waitAtPort_tx (op : BitVec 1) (len : Byte) (t : Time) (s : State) :
    (waitAtPort op len t s).tx = s.tx := rfl
@[simp] theorem waitAtPort_rx (op : BitVec 1) (len : Byte) (t : Time) (s : State) :
    (waitAtPort op len t s).rx = s.rx := rfl
@[simp] theorem waitAtPort_pay (op : BitVec 1) (len : Byte) (t : Time) (s : State) :
    (waitAtPort op len t s).pay = s.pay := rfl
@[simp] theorem waitAtPort_out (op : BitVec 1) (len : Byte) (t : Time) (s : State) :
    (waitAtPort op len t s).out = s.out := rfl
@[simp] theorem waitAtPort_env (op : BitVec 1) (len : Byte) (t : Time) (s : State) :
    (waitAtPort op len t s).env = { s.env with host := .command op len t :: s.env.host } := rfl
@[simp] theorem waitAtPort_unitOut (op : BitVec 1) (len : Byte) (t : Time) (s : State) :
    (waitAtPort op len t s).unitOut = s.unitOut := rfl
@[simp] theorem waitAtPort_freeDraws (op : BitVec 1) (len : Byte) (t : Time) (s : State) :
    (waitAtPort op len t s).freeDraws = s.freeDraws := rfl

/-! ### setTxPhase -/

@[simp] theorem setTxPhase_mode (p : TxPhase) (s : State) : (setTxPhase p s).mode = s.mode := rfl
@[simp] theorem setTxPhase_resOk (p : TxPhase) (s : State) : (setTxPhase p s).resOk = s.resOk := rfl
@[simp] theorem setTxPhase_resLen (p : TxPhase) (s : State) : (setTxPhase p s).resLen = s.resLen := rfl
@[simp] theorem setTxPhase_resCause (p : TxPhase) (s : State) : (setTxPhase p s).resCause = s.resCause := rfl
@[simp] theorem setTxPhase_tx (p : TxPhase) (s : State) : (setTxPhase p s).tx = { s.tx with phase := p } := rfl
@[simp] theorem setTxPhase_rx (p : TxPhase) (s : State) : (setTxPhase p s).rx = s.rx := rfl
@[simp] theorem setTxPhase_pay (p : TxPhase) (s : State) : (setTxPhase p s).pay = s.pay := rfl
@[simp] theorem setTxPhase_out (p : TxPhase) (s : State) : (setTxPhase p s).out = s.out := rfl
@[simp] theorem setTxPhase_env (p : TxPhase) (s : State) : (setTxPhase p s).env = s.env := rfl
@[simp] theorem setTxPhase_unitOut (p : TxPhase) (s : State) : (setTxPhase p s).unitOut = s.unitOut := rfl
@[simp] theorem setTxPhase_freeDraws (p : TxPhase) (s : State) : (setTxPhase p s).freeDraws = s.freeDraws := rfl

/-! ### loadPay -/

@[simp] theorem loadPay_mode (s : State) : (loadPay s).mode = s.mode := rfl
@[simp] theorem loadPay_resOk (s : State) : (loadPay s).resOk = s.resOk := rfl
@[simp] theorem loadPay_resLen (s : State) : (loadPay s).resLen = s.resLen := rfl
@[simp] theorem loadPay_resCause (s : State) : (loadPay s).resCause = s.resCause := rfl
@[simp] theorem loadPay_tx (s : State) :
    (loadPay s).tx = { s.tx with cur := s.pay.read s.tx.idx.toNat, acc := crcByte s.tx.acc (s.pay.read s.tx.idx.toNat) } := rfl
@[simp] theorem loadPay_rx (s : State) : (loadPay s).rx = s.rx := rfl
@[simp] theorem loadPay_pay (s : State) : (loadPay s).pay = s.pay := rfl
@[simp] theorem loadPay_out (s : State) : (loadPay s).out = s.out := rfl
@[simp] theorem loadPay_env (s : State) : (loadPay s).env = s.env := rfl
@[simp] theorem loadPay_unitOut (s : State) : (loadPay s).unitOut = s.unitOut := rfl
@[simp] theorem loadPay_freeDraws (s : State) : (loadPay s).freeDraws = s.freeDraws := rfl

/-! ### startFrame -/

@[simp] theorem startFrame_mode (now : Time) (s : State) : (startFrame now s).mode = s.mode := rfl
@[simp] theorem startFrame_resOk (now : Time) (s : State) : (startFrame now s).resOk = s.resOk := rfl
@[simp] theorem startFrame_resLen (now : Time) (s : State) : (startFrame now s).resLen = s.resLen := rfl
@[simp] theorem startFrame_resCause (now : Time) (s : State) : (startFrame now s).resCause = s.resCause := rfl
@[simp] theorem startFrame_tx (now : Time) (s : State) : (startFrame now s).tx = s.tx := rfl
@[simp] theorem startFrame_rx (now : Time) (s : State) :
    (startFrame now s).rx = { s.rx with haveStx := true, haveEtx := false, phase := .hi, pos := 0, acc := Config.crcInit, t0 := now } := rfl
@[simp] theorem startFrame_pay (now : Time) (s : State) : (startFrame now s).pay = s.pay := rfl
@[simp] theorem startFrame_out (now : Time) (s : State) : (startFrame now s).out = s.out := rfl
@[simp] theorem startFrame_env (now : Time) (s : State) : (startFrame now s).env = s.env := rfl
@[simp] theorem startFrame_unitOut (now : Time) (s : State) : (startFrame now s).unitOut = s.unitOut := rfl
@[simp] theorem startFrame_freeDraws (now : Time) (s : State) : (startFrame now s).freeDraws = s.freeDraws := rfl

/-! ### endPayload -/

@[simp] theorem endPayload_mode (s : State) : (endPayload s).mode = s.mode := rfl
@[simp] theorem endPayload_resOk (s : State) : (endPayload s).resOk = s.resOk := rfl
@[simp] theorem endPayload_resLen (s : State) : (endPayload s).resLen = s.resLen := rfl
@[simp] theorem endPayload_resCause (s : State) : (endPayload s).resCause = s.resCause := rfl
@[simp] theorem endPayload_tx (s : State) : (endPayload s).tx = s.tx := rfl
@[simp] theorem endPayload_rx (s : State) : (endPayload s).rx = { s.rx with haveEtx := true } := rfl
@[simp] theorem endPayload_pay (s : State) : (endPayload s).pay = s.pay := rfl
@[simp] theorem endPayload_out (s : State) : (endPayload s).out = s.out := rfl
@[simp] theorem endPayload_env (s : State) : (endPayload s).env = s.env := rfl
@[simp] theorem endPayload_unitOut (s : State) : (endPayload s).unitOut = s.unitOut := rfl
@[simp] theorem endPayload_freeDraws (s : State) : (endPayload s).freeDraws = s.freeDraws := rfl

/-! ### holdNibble -/

@[simp] theorem holdNibble_mode (n : Nibble) (s : State) : (holdNibble n s).mode = s.mode := rfl
@[simp] theorem holdNibble_resOk (n : Nibble) (s : State) : (holdNibble n s).resOk = s.resOk := rfl
@[simp] theorem holdNibble_resLen (n : Nibble) (s : State) : (holdNibble n s).resLen = s.resLen := rfl
@[simp] theorem holdNibble_resCause (n : Nibble) (s : State) : (holdNibble n s).resCause = s.resCause := rfl
@[simp] theorem holdNibble_tx (n : Nibble) (s : State) : (holdNibble n s).tx = s.tx := rfl
@[simp] theorem holdNibble_rx (n : Nibble) (s : State) :
    (holdNibble n s).rx = { s.rx with cur := n.setWidth 8, phase := .lo } := rfl
@[simp] theorem holdNibble_pay (n : Nibble) (s : State) : (holdNibble n s).pay = s.pay := rfl
@[simp] theorem holdNibble_out (n : Nibble) (s : State) : (holdNibble n s).out = s.out := rfl
@[simp] theorem holdNibble_env (n : Nibble) (s : State) : (holdNibble n s).env = s.env := rfl
@[simp] theorem holdNibble_unitOut (n : Nibble) (s : State) : (holdNibble n s).unitOut = s.unitOut := rfl
@[simp] theorem holdNibble_freeDraws (n : Nibble) (s : State) : (holdNibble n s).freeDraws = s.freeDraws := rfl

/-! ### joinNibble -/

@[simp] theorem joinNibble_mode (n : Nibble) (s : State) : (joinNibble n s).mode = s.mode := rfl
@[simp] theorem joinNibble_resOk (n : Nibble) (s : State) : (joinNibble n s).resOk = s.resOk := rfl
@[simp] theorem joinNibble_resLen (n : Nibble) (s : State) : (joinNibble n s).resLen = s.resLen := rfl
@[simp] theorem joinNibble_resCause (n : Nibble) (s : State) : (joinNibble n s).resCause = s.resCause := rfl
@[simp] theorem joinNibble_tx (n : Nibble) (s : State) : (joinNibble n s).tx = s.tx := rfl
@[simp] theorem joinNibble_rx (n : Nibble) (s : State) :
    (joinNibble n s).rx = { s.rx with cur := (s.rx.cur <<< 4) ||| n.setWidth 8, phase := .hi } := rfl
@[simp] theorem joinNibble_pay (n : Nibble) (s : State) : (joinNibble n s).pay = s.pay := rfl
@[simp] theorem joinNibble_out (n : Nibble) (s : State) : (joinNibble n s).out = s.out := rfl
@[simp] theorem joinNibble_env (n : Nibble) (s : State) : (joinNibble n s).env = s.env := rfl
@[simp] theorem joinNibble_unitOut (n : Nibble) (s : State) : (joinNibble n s).unitOut = s.unitOut := rfl
@[simp] theorem joinNibble_freeDraws (n : Nibble) (s : State) : (joinNibble n s).freeDraws = s.freeDraws := rfl

/-! ### appendByte -/

@[simp] theorem appendByte_mode (s : State) : (appendByte s).mode = s.mode := rfl
@[simp] theorem appendByte_resOk (s : State) : (appendByte s).resOk = s.resOk := rfl
@[simp] theorem appendByte_resLen (s : State) : (appendByte s).resLen = s.resLen := rfl
@[simp] theorem appendByte_resCause (s : State) : (appendByte s).resCause = s.resCause := rfl
@[simp] theorem appendByte_tx (s : State) : (appendByte s).tx = s.tx := rfl
@[simp] theorem appendByte_rx (s : State) :
    (appendByte s).rx = { s.rx with acc := crcByte s.rx.acc s.rx.cur, pos := s.rx.pos + 1 } := rfl
@[simp] theorem appendByte_pay (s : State) : (appendByte s).pay = s.pay := rfl
@[simp] theorem appendByte_out (s : State) : (appendByte s).out = s.out.write s.rx.pos.toNat s.rx.cur := rfl
@[simp] theorem appendByte_env (s : State) : (appendByte s).env = s.env := rfl
@[simp] theorem appendByte_unitOut (s : State) : (appendByte s).unitOut = s.unitOut := rfl
@[simp] theorem appendByte_freeDraws (s : State) : (appendByte s).freeDraws = s.freeDraws := rfl

/-! ### the registers of RECV's acceptance that the spec gives -/

@[simp] theorem recvStart_rx_haveStx (max : Byte) (timeout : Time) (s : State) :
    (recvStart max timeout s).rx.haveStx = false := rfl
@[simp] theorem recvStart_rx_t0 (max : Byte) (timeout : Time) (s : State) :
    (recvStart max timeout s).rx.t0 = s.now := rfl
@[simp] theorem recvStart_rx_maxlen (max : Byte) (timeout : Time) (s : State) :
    (recvStart max timeout s).rx.maxlen = max := rfl
@[simp] theorem recvStart_rx_timeout (max : Byte) (timeout : Time) (s : State) :
    (recvStart max timeout s).rx.timeout = timeout := rfl

end Sys2Proof.Machine
end

