-- ==== Sys2Proof/Laws/Ops.lean ====
section
/-!
SUPPORT. One lemma per shared operation that says once everything it can do; proofs cite these instead of unfolding.
-/

namespace Sys2Proof.Machine

/-- A sample of the clock takes one tick and advances the true time by it (10_state.md R40). -/
theorem sampleClock_cases {s s' : State} (h : sampleClock s = some s') :
    ∃ d ts, s.env.ticks = d :: ts ∧
      s' = { s with env := { s.env with clock := s.env.clock + d, ticks := ts } } := by
  unfold sampleClock at h
  split at h
  · cases h
  · next d ts ht => exact ⟨d, ts, ht, by simpa using h.symm⟩

/-- A poll that read a byte took one tick, one count above zero and that byte (43_frame_receiver.md R201). -/
theorem poll_byte_cases {s s' : State} {w : Byte} (h : poll s = .byte w s') :
    ∃ d ts c cs ws, s.env.ticks = d :: ts ∧ s.env.rxAvail = c :: cs ∧ 0 < c ∧ s.env.rxBytes = w :: ws ∧
      s' = { s with env := { s.env with clock := s.env.clock + d, ticks := ts, rxAvail := cs, rxBytes := ws } } := by
  unfold poll at h
  split at h
  · cases h
  · next s1 hs =>
    obtain ⟨d, ts, ht, rfl⟩ := sampleClock_cases hs
    split at h
    · cases h
    · next c cs hc =>
      dsimp only at hc h
      split at h
      · cases h
      · next hc0 =>
        split at h
        · cases h
        · next w' ws hw =>
          obtain ⟨rfl, rfl⟩ := Poll.byte.inj h
          exact ⟨d, ts, c, cs, ws, ht, hc, Nat.pos_of_ne_zero hc0, hw, rfl⟩

/-- A poll that found nothing took one tick and a count of zero (R201). -/
theorem poll_silent_cases {s s' : State} (h : poll s = .silent s') :
    ∃ d ts cs, s.env.ticks = d :: ts ∧ s.env.rxAvail = 0 :: cs ∧
      s' = { s with env := { s.env with clock := s.env.clock + d, ticks := ts, rxAvail := cs } } := by
  unfold poll at h
  split at h
  · cases h
  · next s1 hs =>
    obtain ⟨d, ts, ht, rfl⟩ := sampleClock_cases hs
    split at h
    · cases h
    · next c cs hc =>
      dsimp only at hc h
      split at h
      · next hc0 =>
        subst hc0
        exact ⟨d, ts, cs, ht, hc, by simpa using h.symm⟩
      · split at h <;> cases h

/-- The poll of a state whose next answers are a tick, a count above zero and a byte. -/
theorem poll_byte {s : State} {d c : Nat} {ts cs : List Nat} {w : Byte} {ws : List Byte}
    (ht : s.env.ticks = d :: ts) (hc : s.env.rxAvail = c :: cs) (h0 : 0 < c) (hw : s.env.rxBytes = w :: ws) :
    poll s = .byte w { s with env := { s.env with
      clock := s.env.clock + d, ticks := ts, rxAvail := cs, rxBytes := ws } } := by
  have hc0 : c ≠ 0 := by omega
  simp [poll, sampleClock, ht, hc, hc0, hw]

/-- The poll of a state whose next answers are a tick and a count of zero. -/
theorem poll_silent {s : State} {d : Nat} {ts cs : List Nat} (ht : s.env.ticks = d :: ts)
    (hc : s.env.rxAvail = 0 :: cs) :
    poll s = .silent { s with env := { s.env with clock := s.env.clock + d, ticks := ts, rxAvail := cs } } := by
  simp [poll, sampleClock, ht, hc]

/-- A sender step that goes on took one answer and recorded one offer: 1 advances, anything else is TX.FAIL
(42_frame_sender.md R161). -/
theorem offer_cases {w : Byte} {adv : State → State} {s t : State} (h : offer w adv s = .next t) :
    ∃ r rest, s.env.txAnswers = r :: rest ∧
      (r = 1 ∧ t = adv (logOffer w r rest s) ∨ r ≠ 1 ∧ t = raise .transport (logOffer w r rest s)) := by
  unfold offer at h
  split at h
  · cases h
  · next r rest hr =>
    split at h
    · next h1 => exact ⟨r, rest, hr, .inl ⟨h1, by cases h; rfl⟩⟩
    · next h1 => exact ⟨r, rest, hr, .inr ⟨h1, by cases h; rfl⟩⟩

theorem offer_one {w : Byte} {adv : State → State} {s : State} {rest : List Nat}
    (h : s.env.txAnswers = 1 :: rest) : offer w adv s = .next (adv (logOffer w 1 rest s)) := by
  simp [offer, h]

theorem offer_other {w : Byte} {adv : State → State} {s : State} {r : Nat} {rest : List Nat}
    (h : s.env.txAnswers = r :: rest) (hr : r ≠ 1) :
    offer w adv s = .next (raise .transport (logOffer w r rest s)) := by
  simp [offer, h, hr]

/-- The byte 0x02 restarts the frame in every receiver state (43_frame_receiver.md R205). -/
@[simp] theorem receiveByte_stx (now : Time) (s : State) :
    receiveByte Config.stx now s = startFrame now s := by simp [receiveByte]

/-- In Idle every other byte is skipped (R202). -/
theorem receiveByte_idle {w : Byte} (now : Time) {s : State} (hw : w ≠ Config.stx) (hs : s.rx.haveStx = false) :
    receiveByte w now s = s := by
  have hc : classify w ≠ .stx := by simpa using hw
  unfold receiveByte
  split
  · contradiction
  · simp [hs]

theorem receiveByte_etx (now : Time) {s : State} (hs : s.rx.haveStx = true) :
    receiveByte Config.etx now s = endPayload s := by simp [receiveByte, hs]

theorem receiveByte_bad {w : Byte} (now : Time) {s : State} (hw : classify w = .bad) (hs : s.rx.haveStx = true) :
    receiveByte w now s = raise .corrupt s := by simp [receiveByte, hw, hs]

theorem receiveByte_hi (n : Nibble) (now : Time) {s : State} (hs : s.rx.haveStx = true) (hp : s.rx.phase = .hi) :
    receiveByte (encNib n) now s = holdNibble n s := by simp [receiveByte, hs, hp]

theorem receiveByte_lo (n : Nibble) (now : Time) {s : State} (hs : s.rx.haveStx = true) (hp : s.rx.phase = .lo) :
    receiveByte (encNib n) now s = lowNibble n s := by simp [receiveByte, hs, hp]

/-- Everything a receiver step with a byte can do (R214), by the class of the byte and the state before. -/
theorem receiveByte_cases (w : Byte) (now : Time) (s : State) :
    (w = Config.stx ∧ receiveByte w now s = startFrame now s) ∨
    (w ≠ Config.stx ∧ s.rx.haveStx = false ∧ receiveByte w now s = s) ∨
    (classify w = .etx ∧ s.rx.haveStx = true ∧ receiveByte w now s = endPayload s) ∨
    (classify w = .bad ∧ s.rx.haveStx = true ∧ receiveByte w now s = raise .corrupt s) ∨
    (∃ n, classify w = .nib n ∧ s.rx.haveStx = true ∧ s.rx.phase = .hi ∧ receiveByte w now s = holdNibble n s) ∨
    (∃ n, classify w = .nib n ∧ s.rx.haveStx = true ∧ s.rx.phase = .lo ∧ receiveByte w now s = lowNibble n s) := by
  by_cases hw : w = Config.stx
  · subst hw; exact .inl ⟨rfl, receiveByte_stx now s⟩
  · cases hs : s.rx.haveStx with
    | false => exact .inr (.inl ⟨hw, rfl, receiveByte_idle now hw hs⟩)
    | true =>
      cases hc : classify w with
      | stx => exact absurd (by simpa using hc) hw
      | etx => exact .inr (.inr (.inl ⟨rfl, rfl, by simp [receiveByte, hc, hs]⟩))
      | bad => exact .inr (.inr (.inr (.inl ⟨rfl, rfl, by simp [receiveByte, hc, hs]⟩)))
      | nib n =>
        cases hp : s.rx.phase with
        | hi => exact .inr (.inr (.inr (.inr (.inl ⟨n, rfl, rfl, rfl, by simp [receiveByte, hc, hs, hp]⟩))))
        | lo => exact .inr (.inr (.inr (.inr (.inr ⟨n, rfl, rfl, rfl, by simp [receiveByte, hc, hs, hp]⟩))))

/-- The endings of RX.NIBLO (R212). -/
theorem lowNibble_cases (n : Nibble) (s : State) :
    (s.rx.haveEtx = true ∧ lowNibble n s = checkSum (joinNibble n s)) ∨
    (s.rx.haveEtx = false ∧ s.rx.pos < s.rx.maxlen ∧ lowNibble n s = appendByte (joinNibble n s)) ∨
    (s.rx.haveEtx = false ∧ ¬ s.rx.pos < s.rx.maxlen ∧ lowNibble n s = raise .overflow (joinNibble n s)) := by
  unfold lowNibble
  cases he : s.rx.haveEtx with
  | true => simp [he]
  | false =>
    by_cases hp : s.rx.pos < s.rx.maxlen <;> simp [he, hp]

@[simp] theorem feed_nil (s : State) : feed [] s = s := rfl

theorem feed_recv {w : Byte} {ws : List Byte} {s : State} (h : s.mode = .recv) :
    feed (w :: ws) s = feed ws (receiveByte w s.now s) := by simp [feed, h]

theorem feed_other {ws : List Byte} {s : State} (h : s.mode ≠ .recv) :
    feed ws s = { s with env := { s.env with rxBytes := ws ++ s.env.rxBytes } } := by
  cases ws with
  | nil => rfl
  | cons w ws =>
    cases hm : s.mode with
    | recv => contradiction
    | idle => simp [feed, hm]
    | send => simp [feed, hm]

end Sys2Proof.Machine
end

