-- ==== Sys2Proof/Laws/PerInstr.lean ====
section
/-!
SUPPORT. One statement about each instruction as syntax: it has a bit pattern exactly when its row's format has one
(30_encoding.md R106: W8, PAIR, FRAME and CMD have, OP and STEP have not).
-/

namespace Sys2Proof.Laws

/-- The row's format in opcode_table.json has a bit pattern. -/
def hasPattern : Instr → Bool
  | .stx => true
  | .etx => true
  | .nib0 => true
  | .nib1 => true
  | .nib2 => true
  | .nib3 => true
  | .nib4 => true
  | .nib5 => true
  | .nib6 => true
  | .nib7 => true
  | .nib8 => true
  | .nib9 => true
  | .nibA => true
  | .nibB => true
  | .nibC => true
  | .nibD => true
  | .nibE => true
  | .nibF => true
  | .bad _ => true
  | .pair _ => true
  | .frame _ => true
  | .send _ => true
  | .recv _ _ => true
  | .crcInit => false
  | .crcBit _ _ => false
  | .crcByte _ _ => false
  | .crcSeq _ => false
  | .encNib _ => false
  | .encByte _ => false
  | .decValid _ => false
  | .decNib _ => false
  | .decPair _ _ => false
  | .raise _ => false
  | .complete _ _ => false
  | .txStep => false
  | .txStx => false
  | .txHi => false
  | .txLo => false
  | .txEtx => false
  | .txChi => false
  | .txClo => false
  | .txFail => false
  | .txDone => false
  | .rxPoll => false
  | .rxSkip _ => false
  | .rxWait _ => false
  | .rxTimeout _ => false
  | .rxStx _ => false
  | .rxEtx => false
  | .rxNibhi _ => false
  | .rxNiblo _ => false
  | .rxPay => false
  | .rxOvf => false
  | .rxChk => false
  | .rxBad _ => false

/-- The encoder gives a bit pattern exactly to the rows that have one. -/
def BitPattern.Statement (i : Instr) : Prop := (encode i).isSome = hasPattern i

theorem BitPattern.stx : BitPattern.Statement (.stx) := rfl
theorem BitPattern.etx : BitPattern.Statement (.etx) := rfl
theorem BitPattern.nib0 : BitPattern.Statement (.nib0) := rfl
theorem BitPattern.nib1 : BitPattern.Statement (.nib1) := rfl
theorem BitPattern.nib2 : BitPattern.Statement (.nib2) := rfl
theorem BitPattern.nib3 : BitPattern.Statement (.nib3) := rfl
theorem BitPattern.nib4 : BitPattern.Statement (.nib4) := rfl
theorem BitPattern.nib5 : BitPattern.Statement (.nib5) := rfl
theorem BitPattern.nib6 : BitPattern.Statement (.nib6) := rfl
theorem BitPattern.nib7 : BitPattern.Statement (.nib7) := rfl
theorem BitPattern.nib8 : BitPattern.Statement (.nib8) := rfl
theorem BitPattern.nib9 : BitPattern.Statement (.nib9) := rfl
theorem BitPattern.nibA : BitPattern.Statement (.nibA) := rfl
theorem BitPattern.nibB : BitPattern.Statement (.nibB) := rfl
theorem BitPattern.nibC : BitPattern.Statement (.nibC) := rfl
theorem BitPattern.nibD : BitPattern.Statement (.nibD) := rfl
theorem BitPattern.nibE : BitPattern.Statement (.nibE) := rfl
theorem BitPattern.nibF : BitPattern.Statement (.nibF) := rfl
theorem BitPattern.bad (w : Byte) : BitPattern.Statement (.bad w) := rfl
theorem BitPattern.pair (b : Byte) : BitPattern.Statement (.pair b) := rfl
theorem BitPattern.frame (p : List Byte) : BitPattern.Statement (.frame p) := rfl
theorem BitPattern.send (len : Byte) : BitPattern.Statement (.send len) := rfl
theorem BitPattern.recv (max : Byte) (timeout : Time) : BitPattern.Statement (.recv max timeout) := rfl
theorem BitPattern.crcInit : BitPattern.Statement (.crcInit) := rfl
theorem BitPattern.crcBit (acc : Byte) (bit : Bool) : BitPattern.Statement (.crcBit acc bit) := rfl
theorem BitPattern.crcByte (acc : Byte) (d : Byte) : BitPattern.Statement (.crcByte acc d) := rfl
theorem BitPattern.crcSeq (p : List Byte) : BitPattern.Statement (.crcSeq p) := rfl
theorem BitPattern.encNib (n : Nibble) : BitPattern.Statement (.encNib n) := rfl
theorem BitPattern.encByte (b : Byte) : BitPattern.Statement (.encByte b) := rfl
theorem BitPattern.decValid (w : Byte) : BitPattern.Statement (.decValid w) := rfl
theorem BitPattern.decNib (w : Byte) : BitPattern.Statement (.decNib w) := rfl
theorem BitPattern.decPair (w1 : Byte) (w2 : Byte) : BitPattern.Statement (.decPair w1 w2) := rfl
theorem BitPattern.raise (c : Cause) : BitPattern.Statement (.raise c) := rfl
theorem BitPattern.complete (ok : Bool) (len : Byte) : BitPattern.Statement (.complete ok len) := rfl
theorem BitPattern.txStep : BitPattern.Statement (.txStep) := rfl
theorem BitPattern.txStx : BitPattern.Statement (.txStx) := rfl
theorem BitPattern.txHi : BitPattern.Statement (.txHi) := rfl
theorem BitPattern.txLo : BitPattern.Statement (.txLo) := rfl
theorem BitPattern.txEtx : BitPattern.Statement (.txEtx) := rfl
theorem BitPattern.txChi : BitPattern.Statement (.txChi) := rfl
theorem BitPattern.txClo : BitPattern.Statement (.txClo) := rfl
theorem BitPattern.txFail : BitPattern.Statement (.txFail) := rfl
theorem BitPattern.txDone : BitPattern.Statement (.txDone) := rfl
theorem BitPattern.rxPoll : BitPattern.Statement (.rxPoll) := rfl
theorem BitPattern.rxSkip (w : Byte) : BitPattern.Statement (.rxSkip w) := rfl
theorem BitPattern.rxWait (now : Time) : BitPattern.Statement (.rxWait now) := rfl
theorem BitPattern.rxTimeout (now : Time) : BitPattern.Statement (.rxTimeout now) := rfl
theorem BitPattern.rxStx (now : Time) : BitPattern.Statement (.rxStx now) := rfl
theorem BitPattern.rxEtx : BitPattern.Statement (.rxEtx) := rfl
theorem BitPattern.rxNibhi (n : Nibble) : BitPattern.Statement (.rxNibhi n) := rfl
theorem BitPattern.rxNiblo (n : Nibble) : BitPattern.Statement (.rxNiblo n) := rfl
theorem BitPattern.rxPay : BitPattern.Statement (.rxPay) := rfl
theorem BitPattern.rxOvf : BitPattern.Statement (.rxOvf) := rfl
theorem BitPattern.rxChk : BitPattern.Statement (.rxChk) := rfl
theorem BitPattern.rxBad (w : Byte) : BitPattern.Statement (.rxBad w) := rfl

end Sys2Proof.Laws
end

