-- ==== Sys2Proof/Laws/Run.lean ====
section
/-!
SUPPORT. Runs of several steps: one step first, and two runs one after the other.
-/

namespace Sys2Proof.Claims

open Sys2Proof.Machine

@[simp] theorem run_zero (s : State) : run 0 s = .next s := rfl

theorem run_next {s t : State} (k : Nat) (h : step s = .next t) : run (k + 1) s = run k t := by
  simp only [run, h]

/-- What a run of `j + k` steps does is what its last `k` steps do after the first `j`. -/
theorem run_add {s t : State} (j k : Nat) (h : run j s = .next t) : run (j + k) s = run k t := by
  induction j generalizing s with
  | zero => cases h; rw [Nat.zero_add]
  | succ j ih =>
    rw [Nat.succ_add]
    cases hs : step s with
    | next u => rw [run_next j hs] at h; rw [run_next (j + k) hs]; exact ih h
    | fault f => simp only [run, hs, reduceCtorEq] at h
    | refused r => simp only [run, hs, reduceCtorEq] at h

end Sys2Proof.Claims
end

