-- ==== Sys2Proof/Laws/Step.lean ====
section
/-!
SUPPORT. What a step is in each mode, in terms of the shared operations.
-/

namespace Sys2Proof.Machine

/-- The row of a wire byte does what the receiver does with it (R201), once the block receives. -/
theorem exec_decodeWire {s : State} (w : Byte) (h : s.mode = .recv) :
    exec (decodeWire w) s = .next (receiveByte w s.now s) := by
  have h1 : ∀ v : Byte, feed [v] s = receiveByte v s.now s := fun v => feed_recv h
  have key : ∀ n : Nibble, classify w = .nib n → w = encNib n := by
    revert w; decide
  cases hc : classify w with
  | stx =>
    have hw : w = Config.stx := by simpa using hc
    subst hw
    simp only [decodeWire, hc]
    exact congrArg _ (h1 _)
  | etx =>
    have hw : w = Config.etx := by revert w; decide
    subst hw
    simp only [decodeWire, hc]
    exact congrArg _ (h1 _)
  | bad =>
    simp only [decodeWire, hc]
    exact congrArg _ (h1 _)
  | nib n =>
    have hw := key n hc
    subst hw
    simp only [decodeWire, classify_encNib]
    have hn : ∀ m : Nibble, exec (nibInstr m) s = .next (feed [encNib m] s) := by
      intro m
      have : m = 0 ∨ m = 1 ∨ m = 2 ∨ m = 3 ∨ m = 4 ∨ m = 5 ∨ m = 6 ∨ m = 7 ∨ m = 8 ∨ m = 9 ∨ m = 10 ∨ m = 11 ∨
          m = 12 ∨ m = 13 ∨ m = 14 ∨ m = 15 := by revert m; decide
      rcases this with h | h | h | h | h | h | h | h | h | h | h | h | h | h | h | h <;> subst h <;> rfl
    rw [hn n, h1]

/-- A step of the sending block is the sender step of its phase (42_frame_sender.md R161). -/
theorem step_send {s : State} (h : s.mode = .send) : step s = senderStep s.tx.phase s := by
  simp only [step, fetch, h]
  cases hp : s.tx.phase <;>
    simp [senderInstr, exec, execTxStx, execTxHi, execTxLo, execTxEtx, execTxChi, execTxClo, State.sends, h, hp]

/-- A step of the receiving block (43_frame_receiver.md R201). -/
theorem step_recv {s : State} (h : s.mode = .recv) :
    step s = match poll s with
      | .byte w s' => .next (receiveByte w s'.now s')
      | .silent s' => .next (receiveNothing s'.now s')
      | .stuck f => .fault f := by
  simp only [step, fetch, h, fetchRecv]
  cases hp : poll s with
  | stuck f => rfl
  | byte w s' =>
    obtain ⟨d, ts, c, cs, ws, -, -, -, -, rfl⟩ := poll_byte_cases hp
    exact exec_decodeWire w h
  | silent s' =>
    have hm : s'.mode = .recv := by
      obtain ⟨d, ts, cs, -, -, rfl⟩ := poll_silent_cases hp
      exact h
    clear hp
    by_cases hd : deadlinePassed s'.now s'.rx.t0 s'.rx.timeout = true
    · simp [hd, exec, execRxTimeout, receiveNothing, hm]
    · simp only [Bool.not_eq_true] at hd
      simp [hd, exec, execRxWait, receiveNothing, hm]

/-- A step of the idle block. -/
theorem step_idle {s : State} (h : s.mode = .idle) :
    step s = match fetchIdle s with
      | .run i s' => exec i s'
      | .host s' => .next s'
      | .stuck f => .fault f := by
  have hf : fetch s = fetchIdle s := by simp only [fetch, h]
  exact congrArg (fun f => match f with
    | Fetched.run i s' => exec i s'
    | .host s' => .next s'
    | .stuck f => .fault f) hf

end Sys2Proof.Machine
end

