-- ==== Sys2Proof/Tests/Slice0.lean ====
section
/-!
SUPPORT. Tests: well-formedness, words written out from 30_encoding.md, single steps from the examples of the rules and
the vectors of 95_test_vectors.md, and for every statement with hypotheses a witness that meets them.
-/

namespace Sys2Proof.Tests

open Sys2Proof.Machine Sys2Proof.Claims

/-! ## Well-formed terms: one ill-formed term for each check, one at its edge -/

theorem test_wf_bad_refuses_marker : (Instr.bad 0x02).wf = false := by decide
theorem test_wf_bad_refuses_code : (Instr.bad 0x4B).wf = false := by decide
theorem test_wf_bad_accepts : (Instr.bad 0x1F).wf = true := by decide
theorem test_wf_frame_refuses_long : (Instr.frame (List.replicate 256 0)).wf = false := by decide +kernel
theorem test_wf_frame_accepts_longest : (Instr.frame (List.replicate 255 0)).wf = true := by decide +kernel
theorem test_wf_crcSeq_refuses_long : (Instr.crcSeq (List.replicate 256 0)).wf = false := by decide +kernel
theorem test_wf_raise_refuses_none : (Instr.raise .none).wf = false := by decide
theorem test_wf_complete_refuses_failure : (Instr.complete false 0).wf = false := by decide
theorem test_wf_rxSkip_refuses_stx : (Instr.rxSkip 0x02).wf = false := by decide
theorem test_wf_rxBad_refuses_etx : (Instr.rxBad 0x03).wf = false := by decide

/-! ## Decoding: words written out bit by bit (30_encoding.md R92 to R97, R101) -/

theorem test_decode_stx : decode (.wire 0b00000010) = .ok .stx := rfl
theorem test_decode_etx : decode (.wire 0b00000011) = .ok .etx := rfl
theorem test_decode_nib0 : decode (.wire 0b00001111) = .ok .nib0 := rfl
theorem test_decode_nib1 : decode (.wire 0b00011110) = .ok .nib1 := rfl
theorem test_decode_nib2 : decode (.wire 0b00101101) = .ok .nib2 := rfl
theorem test_decode_nib3 : decode (.wire 0b00111100) = .ok .nib3 := rfl
theorem test_decode_nib4 : decode (.wire 0b01001011) = .ok .nib4 := rfl
theorem test_decode_nib5 : decode (.wire 0b01011010) = .ok .nib5 := rfl
theorem test_decode_nib6 : decode (.wire 0b01101001) = .ok .nib6 := rfl
theorem test_decode_nib7 : decode (.wire 0b01111000) = .ok .nib7 := rfl
theorem test_decode_nib8 : decode (.wire 0b10000111) = .ok .nib8 := rfl
theorem test_decode_nib9 : decode (.wire 0b10010110) = .ok .nib9 := rfl
theorem test_decode_nibA : decode (.wire 0b10100101) = .ok .nibA := rfl
theorem test_decode_nibB : decode (.wire 0b10110100) = .ok .nibB := rfl
theorem test_decode_nibC : decode (.wire 0b11000011) = .ok .nibC := rfl
theorem test_decode_nibD : decode (.wire 0b11010010) = .ok .nibD := rfl
theorem test_decode_nibE : decode (.wire 0b11100001) = .ok .nibE := rfl
theorem test_decode_nibF : decode (.wire 0b11110000) = .ok .nibF := rfl
theorem test_decode_bad : decode (.wire 0b00000000) = .ok (.bad 0x00) := rfl
theorem test_decode_pair : decode (.pair 0b00001111 0b00101101) = .ok (.pair 0x02) := rfl
theorem test_decode_pair_refused : decode (.pair 0b00001111 0b00000010) = .error .badCode := rfl
theorem test_decode_send : decode (.command 0 2 77) = .ok (.send 2) := rfl
theorem test_decode_recv : decode (.command 1 8 100) = .ok (.recv 8 100) := rfl

/-- The frame of `41 42` (95_test_vectors.md section 1). -/
theorem test_decode_frame :
    decode (.frame [0x02, 0x4B, 0x1E, 0x4B, 0x2D, 0x03, 0xA5, 0x5A]) = .ok (.frame [0x41, 0x42]) := by decide +kernel

/-- The frame of the empty payload is `02 03 0F 0F` (R98). -/
theorem test_decode_frame_empty : decode (.frame [0x02, 0x03, 0x0F, 0x0F]) = .ok (.frame []) := by decide +kernel

theorem test_decode_frame_checksum :
    decode (.frame [0x02, 0x4B, 0x1E, 0x4B, 0x2D, 0x03, 0xA5, 0x4B]) = .error .badChecksum := by decide +kernel

theorem test_tableWord_stx : decodeTableWord 8 0x02 = some .stx := rfl
theorem test_tableWord_nibF : decodeTableWord 8 0xF0 = some .nibF := rfl
theorem test_tableWord_send : decodeTableWord 8 0 = some (.send 0) := rfl
theorem test_tableWord_recv : decodeTableWord 8 1 = some (.recv 0 0) := rfl
theorem test_tableWord_pair : decodeTableWord 16 0x1E4B = some (.pair 0x41) := rfl
theorem test_tableWord_frame : decodeTableWord 32 0x0F0F0302 = some (.frame []) := by decide +kernel

/-! ## Small states -/

/-- An idle block whose host acts next as listed. -/
def idle (acts : List HostAct) (ticks : List Nat) : State :=
  { State.reset with env := { State.reset.env with host := acts, ticks := ticks } }

/-- A sending block with the payload `41 42` in PAY. -/
def sending (tx : TxRegs) (answers : List Nat) : State :=
  { State.reset with
    mode := .send
    tx := tx
    pay := [(0, 0x41), (1, 0x42)]
    env := { State.reset.env with txAnswers := answers } }

/-- A receiving block. -/
def receiving (rx : RxRegs) (ticks avail : List Nat) (bytes : List Byte) : State :=
  { State.reset with
    mode := .recv
    rx := rx
    env := { State.reset.env with ticks := ticks, rxAvail := avail, rxBytes := bytes } }

/-- The receiver in Idle with capacity 8 and timeout 100, the deadline set at 100 ms. -/
def rxIdle : RxRegs := ⟨false, false, .hi, 0, 0, 0, 100, 8, 100⟩

/-- The receiver after a start marker. -/
def rxAt (etx : Bool) (phase : NibPhase) (pos cur acc max : Byte) : RxRegs :=
  ⟨true, etx, phase, pos, cur, acc, 100, max, 100⟩

/-- What a result is, read through `f`. -/
def after {α : Type} (r : Result) (f : State → α) : Option α :=
  match r with
  | .next t => some (f t)
  | .fault _ => none
  | .refused _ => none

/-- The result registers and the mode. -/
def ending (s : State) : Mode × Bool × Byte × Cause := (s.mode, s.resOk, s.resLen, s.resCause)

/-! ## Single steps: the examples of the rules -/

theorem test_crcInit : after (exec .crcInit State.reset) (·.unitOut) = some (.byte 0x00) := by decide
theorem test_crcBit : after (exec (.crcBit 0x23 false) State.reset) (·.unitOut) = some (.byte 0x9D) := by decide
theorem test_crcBit_mix0 : after (exec (.crcBit 0xFF true) State.reset) (·.unitOut) = some (.byte 0x7F) := by decide
theorem test_crcByte : after (exec (.crcByte 0x00 0x41) State.reset) (·.unitOut) = some (.byte 0x18) := by decide
theorem test_crcByte_second : after (exec (.crcByte 0x18 0x42) State.reset) (·.unitOut) = some (.byte 0xA5) := by decide
theorem test_crcSeq : after (exec (.crcSeq [0x41, 0x42]) State.reset) (·.unitOut) = some (.byte 0xA5) := by decide +kernel
theorem test_crcSeq_order : after (exec (.crcSeq [0x42, 0x41]) State.reset) (·.unitOut) = some (.byte 0x12) := by decide +kernel
theorem test_encNib : after (exec (.encNib 0x4) State.reset) (·.unitOut) = some (.byte 0x4B) := by decide
theorem test_encByte : after (exec (.encByte 0x41) State.reset) (·.unitOut) = some (.pair 0x4B 0x1E) := by decide
theorem test_decValid : after (exec (.decValid 0x4B) State.reset) (·.unitOut) = some (.bit true) := by decide
theorem test_decValid_no : after (exec (.decValid 0x4A) State.reset) (·.unitOut) = some (.bit false) := by decide
theorem test_decNib : after (exec (.decNib 0x1E) State.reset) (·.unitOut) = some (.nibbleResult (some 0x1)) := by decide
theorem test_decNib_fail : after (exec (.decNib 0x1F) State.reset) (·.unitOut) = some (.nibbleResult none) := by decide
theorem test_decPair :
    after (exec (.decPair 0x4B 0x1E) State.reset) (·.unitOut) = some (.byteResult (some 0x41)) := by decide

theorem test_send : after (exec (.send 2) State.reset) (fun t => (t.mode, t.tx.phase, t.tx.idx, t.tx.len, t.tx.acc)) =
    some (.send, .stx, 0, 2, 0x00) := by decide
theorem test_recv : after (exec (.recv 8 100) (idle [] [5]))
    (fun t => (t.mode, t.rx.maxlen, t.rx.timeout, t.rx.t0, t.rx.haveStx)) = some (.recv, 8, 100, 5, false) := by decide
theorem test_raise : after (exec (.raise .overflow) (sending ⟨.stx, 0, 2, 0, 0⟩ [])) ending =
    some (.idle, false, 0, .overflow) := by decide
theorem test_complete : after (exec (.complete true 7) (receiving rxIdle [] [] [])) ending =
    some (.idle, true, 7, .none) := by decide

theorem test_txStx : after (exec .txStx (sending ⟨.stx, 0, 2, 0, 0⟩ [1])) (fun t => (t.tx.phase, t.env.txs)) =
    some (.hi, [⟨0x02, 1⟩]) := by decide
theorem test_txStx_empty : after (exec .txStx (sending ⟨.stx, 0, 0, 0, 0⟩ [1])) (·.tx.phase) = some .etx := by decide
theorem test_txHi : after (exec .txHi (sending ⟨.hi, 0, 2, 0, 0⟩ [1])) (fun t => (t.tx, t.env.txs)) =
    some (⟨.lo, 0, 2, 0x41, 0x18⟩, [⟨0x4B, 1⟩]) := by decide
theorem test_txHi_fails : after (exec .txHi (sending ⟨.hi, 0, 2, 0, 0⟩ [2])) (fun t => (ending t, t.tx.acc)) =
    some ((.idle, false, 0, .transport), 0x18) := by decide
theorem test_txLo : after (exec .txLo (sending ⟨.lo, 0, 2, 0x41, 0x18⟩ [1])) (fun t => (t.tx, t.env.txs)) =
    some (⟨.hi, 1, 2, 0x41, 0x18⟩, [⟨0x1E, 1⟩]) := by decide
theorem test_txLo_last : after (exec .txLo (sending ⟨.lo, 1, 2, 0x42, 0xA5⟩ [1])) (fun t => (t.tx, t.env.txs)) =
    some (⟨.etx, 1, 2, 0x42, 0xA5⟩, [⟨0x2D, 1⟩]) := by decide
theorem test_txEtx : after (exec .txEtx (sending ⟨.etx, 1, 2, 0x42, 0xA5⟩ [1])) (fun t => (t.tx.phase, t.env.txs)) =
    some (.chi, [⟨0x03, 1⟩]) := by decide
theorem test_txChi : after (exec .txChi (sending ⟨.chi, 1, 2, 0x42, 0xA5⟩ [1])) (fun t => (t.tx.phase, t.env.txs)) =
    some (.clo, [⟨0xA5, 1⟩]) := by decide
theorem test_txClo : after (exec .txClo (sending ⟨.clo, 1, 2, 0x42, 0xA5⟩ [1])) (fun t => (ending t, t.env.txs)) =
    some ((.idle, true, 0, .none), [⟨0x5A, 1⟩]) := by decide
theorem test_txStep_fails : after (exec .txStep (sending ⟨.hi, 1, 2, 0x41, 0x18⟩ [0]))
    (fun t => (ending t, t.env.txs)) = some ((.idle, false, 0, .transport), [⟨0x4B, 0⟩]) := by decide
theorem test_txFail : after (exec .txFail (sending ⟨.lo, 0, 2, 0, 0⟩ [])) ending =
    some (.idle, false, 0, .transport) := by decide
theorem test_txDone : after (exec .txDone (sending ⟨.clo, 0, 2, 0, 0⟩ [])) ending = some (.idle, true, 0, .none) := by
  decide

theorem test_rxPoll_skip : after (exec .rxPoll (receiving rxIdle [200] [1] [0x55, 0x02]))
    (fun t => (t.mode, t.rx, t.env.rxBytes)) = some (.recv, rxIdle, [0x02]) := by decide
theorem test_rxPoll_timeout : after (exec .rxPoll (receiving rxIdle [201] [0] [0x02])) (fun t => (ending t, t.env.rxBytes)) =
    some ((.idle, false, 0, .timeout), [0x02]) := by decide
theorem test_rxSkip : after (exec (.rxSkip 0x03) (receiving rxIdle [] [] [])) (·.rx) = some rxIdle := by decide
theorem test_rxWait : after (exec (.rxWait 200) (receiving rxIdle [] [] [])) (·.mode) = some .recv := by decide
theorem test_rxTimeout : after (exec (.rxTimeout 201) (receiving rxIdle [] [] [])) ending =
    some (.idle, false, 0, .timeout) := by decide
theorem test_rxStx : after (exec (.rxStx 50) (receiving (rxAt true .lo 1 4 0x18 8) [] [] [])) (·.rx) =
    some ⟨true, false, .hi, 0, 4, 0x00, 50, 8, 100⟩ := by decide
theorem test_rxEtx : after (exec .rxEtx (receiving (rxAt false .hi 2 0x42 0xA5 8) [] [] [])) (·.rx) =
    some (rxAt true .hi 2 0x42 0xA5 8) := by decide
theorem test_rxNibhi : after (exec (.rxNibhi 0x4) (receiving (rxAt false .hi 0 0xFF 0 8) [] [] [])) (·.rx) =
    some (rxAt false .lo 0 0x04 0 8) := by decide
theorem test_rxNiblo : after (exec (.rxNiblo 0x1) (receiving (rxAt false .lo 0 0x04 0 8) [] [] []))
    (fun t => (t.rx, t.out)) = some (rxAt false .hi 1 0x41 0x18 8, [(0, 0x41)]) := by decide
theorem test_rxPay : after (exec .rxPay (receiving (rxAt false .hi 0 0x41 0 8) [] [] []))
    (fun t => (t.rx, t.out)) = some (rxAt false .hi 1 0x41 0x18 8, [(0, 0x41)]) := by decide
theorem test_rxOvf : after (exec .rxOvf (receiving (rxAt false .hi 1 0x42 0x18 1) [] [] []))
    (fun t => (ending t, t.out)) = some ((.idle, false, 0, .overflow), []) := by decide
theorem test_rxChk : after (exec .rxChk (receiving (rxAt true .hi 2 0xA5 0xA5 8) [] [] [])) ending =
    some (.idle, true, 2, .none) := by decide
theorem test_rxChk_unequal : after (exec .rxChk (receiving (rxAt true .hi 1 0x19 0x18 8) [] [] [])) ending =
    some (.idle, false, 0, .checksum) := by decide
theorem test_rxBad : after (exec (.rxBad 0x1F) (receiving (rxAt false .lo 0 4 0 8) [] [] [])) ending =
    some (.idle, false, 0, .corrupt) := by decide

theorem test_stx : after (exec .stx (receiving rxIdle [] [] [])) (·.rx) = some ⟨true, false, .hi, 0, 0, 0, 0, 8, 100⟩ := by
  decide
theorem test_etx_idle : after (exec .etx (receiving rxIdle [] [] [])) (·.rx) = some rxIdle := by decide
theorem test_nib4 : after (exec .nib4 (receiving (rxAt false .hi 0 0 0 8) [] [] [])) (·.rx) =
    some (rxAt false .lo 0 0x04 0 8) := by decide
theorem test_nib1 : after (exec .nib1 (receiving (rxAt false .lo 0 0x04 0 8) [] [] [])) (·.rx) =
    some (rxAt false .hi 1 0x41 0x18 8) := by decide
theorem test_nib_codes : ∀ p ∈ [(Instr.nib0, (0x00 : Byte)), (.nib2, 0x02), (.nib3, 0x03), (.nib5, 0x05), (.nib6, 0x06),
    (.nib7, 0x07), (.nib8, 0x08), (.nib9, 0x09), (.nibA, 0x0A), (.nibB, 0x0B), (.nibC, 0x0C), (.nibD, 0x0D), (.nibE, 0x0E),
    (.nibF, 0x0F)], after (exec p.1 (receiving (rxAt false .hi 0 0 0 8) [] [] [])) (fun t => (t.rx.phase, t.rx.cur)) =
    some (.lo, p.2) := by decide +kernel
/-- The unaligned end marker of 43_frame_receiver.md R221: nibble 8 completes the checksum 0x18. -/
theorem test_nib8_unaligned : after (exec .nib8 (receiving (rxAt true .lo 1 0x01 0x18 8) [] [] [])) ending =
    some (.idle, true, 1, .none) := by decide
theorem test_bad : after (exec (.bad 0x1F) (receiving (rxAt true .hi 0 0 0 8) [] [] [])) ending =
    some (.idle, false, 0, .corrupt) := by decide
theorem test_pair : after (exec (.pair 0x41) (receiving (rxAt false .hi 0 0 0 8) [] [] []))
    (fun t => (t.rx, t.out)) = some (rxAt false .hi 1 0x41 0x18 8, [(0, 0x41)]) := by decide
theorem test_frame : after (exec (.frame [0x41, 0x42]) (receiving rxIdle [] [] [])) (fun t => (ending t, t.out)) =
    some ((.idle, true, 2, .none), [(0, 0x41), (1, 0x42)]) := by decide +kernel
theorem test_frame_overflow : after (exec (.frame [0x41, 0x42]) (receiving (rxAt false .hi 0 0 0 1) [] [] []))
    (fun t => (ending t, t.env.rxBytes)) = some ((.idle, false, 0, .overflow), [0x03, 0xA5, 0x5A]) := by decide +kernel

/-- Operands outside their row's range run (log entry 19). -/
theorem test_raise_none : after (exec (.raise .none) (sending ⟨.stx, 0, 2, 0, 0⟩ []))
    (fun t => (t.mode, t.resOk, t.resLen, t.freeDraws)) = some (.idle, false, 0, 1) := by decide
theorem test_complete_zero : after (exec (.complete false 7) (receiving rxIdle [] [] [])) ending =
    some (.idle, true, 7, .none) := by decide
theorem test_crcSeq_long : after (exec (.crcSeq (List.replicate 256 0)) State.reset) (fun t => (t.mode, t.freeDraws)) =
    some (.idle, 1) := by decide +kernel
theorem test_bad_code : after (exec (.bad 0x4B) (receiving (rxAt false .hi 0 0 0 8) [] [] [])) (·.rx) =
    some (rxAt false .lo 0 0x04 0 8) := by decide
theorem test_rxSkip_stx : after (exec (.rxSkip 0x02) (receiving rxIdle [] [] [])) (·.rx) = some rxIdle := by decide
theorem test_rxBad_code : after (exec (.rxBad 0x4B) (receiving (rxAt false .hi 0 0 0 8) [] [] [])) ending =
    some (.idle, false, 0, .corrupt) := by decide

theorem test_fetchWord_stx : after (step (State.reset.withFetchWord 8 0x02)) (fun t => (t.mode, t.rx.haveStx)) =
    some (.recv, true) := by decide
theorem test_fetchWord_send : after (step (State.reset.withFetchWord 8 0)) (·.mode) = some .send := by decide
theorem test_fetchWord_recv : after (step (State.reset.withFetchWord 8 1)) (·.mode) = some .recv := by decide

/-! ## Witnesses: concrete states and operands that meet the hypotheses of each statement -/

/-- Every clause of StepRunsSelectedInstruction, with both outcomes of the deadline test at its edge. -/
theorem witness_StepRunsSelectedInstruction :
    ((idle [.command 1 8 100] [5]).mode = .idle ∧ decode (.command 1 8 100) = .ok (.recv 8 100)) ∧
    (∀ p ∈ [TxPhase.stx, .hi, .lo, .etx, .chi, .clo], (sending ⟨p, 0, 2, 0, 0⟩ []).mode = .send ∧
      (sending ⟨p, 0, 2, 0, 0⟩ []).tx.phase = p) ∧
    ((receiving rxIdle [1] [3] [0x02]).mode = .recv ∧ 0 < 3 ∧ decode (.wire 0x02) = .ok .stx) ∧
    ((receiving rxIdle [200] [0] []).mode = .recv ∧ ¬ rxIdle.timeout < BitVec.ofNat timeW (0 + 200) - rxIdle.t0) ∧
    ((receiving rxIdle [201] [0] []).mode = .recv ∧ rxIdle.timeout < BitVec.ofNat timeW (0 + 201) - rxIdle.t0) :=
  ⟨⟨rfl, rfl⟩, by decide, ⟨rfl, by decide, rfl⟩, ⟨rfl, by decide⟩, rfl, by decide⟩

theorem witness_StepIsTxStepOrRxPoll : (sending ⟨.stx, 0, 2, 0, 0⟩ [1]).mode = .send ∧ (receiving rxIdle [] [] []).mode = .recv :=
  ⟨rfl, rfl⟩

theorem witness_IdleBlockServesHost :
    (∀ acts ∈ [[], [HostAct.writePay 255 1], [.writeOut 0 0]], (idle acts []).mode = .idle ∧
      (idle acts []).env.host = acts) := by decide

theorem witness_ResetClearsControl : (idle [.reset] []).mode = .idle ∧ (idle [.reset] []).env.host = [.reset] := ⟨rfl, rfl⟩

/-- A SEND of `41 42` that has offered two bytes and holds the first payload byte. -/
def sendingLo : State :=
  { sending ⟨.lo, 0, 2, 0x41, 0x18⟩ [1] with
    env := { State.reset.env with txs := [⟨0x02, 1⟩, ⟨0x4B, 1⟩], txAnswers := [1] } }

/-- A RECV into a buffer of one byte, which is full, with a held nibble. -/
def receivingFull : State :=
  { receiving (rxAt false .lo 1 0x04 0x18 1) [0] [1] [0x2D] with out := [(0, 0x41)] }

/-- The invariant holds of a sending and of a receiving state, which both step on. -/
theorem witness_StepKeepsInvariant :
    inv sendingLo ∧ after (step sendingLo) (·.tx.idx) = some 1 ∧
    inv receivingFull ∧ after (step receivingFull) ending = some (.idle, false, 0, .overflow) := by
  refine ⟨⟨rfl, rfl, fun _ => ⟨?_, ?_, ?_, ?_, [], ?_⟩, ?_⟩, ?_, ⟨rfl, rfl, ?_, fun _ _ => ⟨?_, ?_, ?_⟩⟩, ?_⟩
  · decide
  · decide
  · decide
  · decide
  · decide +kernel
  · intro h; cases h
  · decide
  · intro h; cases h
  · decide
  · decide
  · decide
  · decide

/-- Steps in every mode, for the statements about any step. -/
theorem witness_RunningUnitFrame :
    after (step (sending ⟨.stx, 0, 2, 0, 0⟩ [1])) (·.mode) = some .send ∧
    after (step (receiving rxIdle [1] [1] [0x02])) (·.mode) = some .recv := by decide

theorem witness_OutWritesStayBelowCapacity :
    (receiving (rxAt false .lo 0 0x04 0 1) [0] [1] [0x1E]).mode = .recv ∧
    after (step (receiving (rxAt false .lo 0 0x04 0 1) [0] [1] [0x1E])) (fun t => t.out.read 0) = some 0x41 := by decide

/-- A running step, and the idle block with nothing, a write and a command before it. -/
theorem witness_ResultsHoldUntilExit :
    after (step { sending ⟨.stx, 0, 2, 0, 0⟩ [1] with resOk := true, resLen := 9 }) (fun t => (t.mode, t.resOk, t.resLen)) =
      some (.send, true, 9) ∧
    (∀ acts ∈ [[], [HostAct.writeOut 0 5], [.command 0 2 0]], (idle acts []).mode = .idle ∧
      (after (step (idle acts [])) (·.mode)).isSome = true ∧ (idle acts []).env.host.head? ≠ some .reset) := by decide

/-- Each ending of CommandsEndOnlyAsListed happens. -/
theorem witness_CommandsEndOnlyAsListed :
    after (step (receiving (rxAt true .lo 2 0x0A 0xA5 8) [0] [1] [0x5A])) ending = some (.idle, true, 2, .none) ∧
    after (step (receiving (rxAt true .lo 2 0x0A 0xA5 8) [0] [1] [0x4B])) ending = some (.idle, false, 0, .checksum) ∧
    after (step (receiving rxIdle [201] [0] [])) ending = some (.idle, false, 0, .timeout) ∧
    after (step (receiving (rxAt false .hi 0 0 0 8) [0] [1] [0xFF])) ending = some (.idle, false, 0, .corrupt) ∧
    after (step (receiving (rxAt false .lo 8 0 0 8) [0] [1] [0x0F])) ending = some (.idle, false, 0, .overflow) ∧
    after (step (sending ⟨.clo, 1, 2, 0x42, 0xA5⟩ [1])) ending = some (.idle, true, 0, .none) ∧
    after (step (sending ⟨.clo, 1, 2, 0x42, 0xA5⟩ [0])) ending = some (.idle, false, 0, .transport) := by
  refine ⟨?_, ?_, ?_, ?_, ?_, ?_, ?_⟩ <;> decide +kernel

theorem witness_UnspecifiedRegistersDoNotMatter :
    (idle [.command 1 8 100] [5]).mode = .idle ∧
    sameOutside (idle [.command 1 8 100] [5])
      { idle [.command 1 8 100] [5] with rx := rxAt true .lo 9 9 9 9, tx := ⟨.clo, 7, 7, 7, 7⟩ } :=
  ⟨rfl, rfl, rfl, rfl, rfl, rfl, rfl, rfl⟩

theorem witness_ExitsWriteResults : (sending ⟨.stx, 0, 2, 0, 0⟩ []).mode ≠ .idle ∧ Cause.transport ≠ .none := by decide

theorem witness_CrcSeqAnswer : (List.replicate 255 (0x41 : Byte)).length ≤ 255 := by decide +kernel

theorem witness_CrcLastByte : crcSeq ([0x41] ++ [0x42]) = crcSeq ([0x41] ++ [0x42]) := rfl

theorem witness_PairRoundTrip : decPair 0x4B 0x1E = some 0x41 := rfl

/-- Every kind of bit pattern. -/
theorem witness_DecodeInvertsEncode :
    (Instr.bad 0x1F).wf = true ∧ encode (.bad 0x1F) = some (.wire 0x1F) ∧
    encode (.pair 0x41) = some (.pair 0x4B 0x1E) ∧ encode (.send 255) = some (.command 0 255 0) ∧
    encode (.recv 8 100) = some (.command 1 8 100) ∧
    (Instr.frame []).wf = true ∧ encode (.frame []) = some (.frame [0x02, 0x03, 0x0F, 0x0F]) := by
  refine ⟨?_, ?_, ?_, ?_, ?_, ?_, ?_⟩ <;> decide +kernel

theorem witness_EncodeInvertsDecode :
    decode (.wire 0x4B) = .ok .nib4 ∧ decode (.pair 0x4B 0x1E) = .ok (.pair 0x41) ∧
    decode (.frame [0x02, 0x03, 0x0F, 0x0F]) = .ok (.frame []) ∧ decode (.command 0 2 77) = .ok (.send 2) := by
  refine ⟨rfl, rfl, ?_, rfl⟩
  decide +kernel

theorem witness_SendAccepted : State.reset.mode = .idle := rfl

theorem witness_RecvAccepted : (idle [] [0]).mode = .idle ∧ (idle [] [0]).env.ticks = [0] := ⟨rfl, rfl⟩

theorem witness_BusyCommandWaits : (receiving rxIdle [] [] []).mode ≠ .idle := by decide

/-- Answers 1 and other than 1; lengths 0 and 255. -/
theorem witness_TxStxStep :
    ∀ r ∈ [0, 1, 2], ∀ len ∈ [(0 : Byte), 1, 255], (sending ⟨.stx, 0, len, 0, 0⟩ [r]).mode = .send ∧
      (sending ⟨.stx, 0, len, 0, 0⟩ [r]).tx.phase = .stx ∧ (sending ⟨.stx, 0, len, 0, 0⟩ [r]).env.txAnswers = [r] := by
  decide

theorem witness_TxHiStep :
    ∀ r ∈ [0, 1, 2], (sending ⟨.hi, 1, 2, 0, 0⟩ [r]).mode = .send ∧ (sending ⟨.hi, 1, 2, 0, 0⟩ [r]).tx.phase = .hi ∧
      (sending ⟨.hi, 1, 2, 0, 0⟩ [r]).env.txAnswers = [r] ∧ (0x42 : Byte) = (sending ⟨.hi, 1, 2, 0, 0⟩ [r]).pay.read 1 := by
  decide

/-- The last index before the end, and the end, up to length 255. -/
theorem witness_TxLoStep :
    ∀ r ∈ [0, 1], ∀ idx ∈ [(253 : Byte), 254], (sending ⟨.lo, idx, 255, 0, 0⟩ [r]).mode = .send ∧
      (sending ⟨.lo, idx, 255, 0, 0⟩ [r]).tx.phase = .lo ∧ (sending ⟨.lo, idx, 255, 0, 0⟩ [r]).env.txAnswers = [r] := by
  decide

theorem witness_TxEtxStep :
    ∀ r ∈ [0, 1], (sending ⟨.etx, 0, 0, 0, 0⟩ [r]).mode = .send ∧ (sending ⟨.etx, 0, 0, 0, 0⟩ [r]).tx.phase = .etx ∧
      (sending ⟨.etx, 0, 0, 0, 0⟩ [r]).env.txAnswers = [r] := by decide

theorem witness_TxChecksumSteps :
    ∀ r ∈ [0, 1], ∀ p ∈ [TxPhase.chi, .clo], (sending ⟨p, 0, 0, 0, 0xA5⟩ [r]).mode = .send ∧
      (sending ⟨p, 0, 0, 0, 0xA5⟩ [r]).tx.phase = p ∧ (sending ⟨p, 0, 0, 0, 0xA5⟩ [r]).env.txAnswers = [r] := by decide

theorem witness_TxOutcomes :
    (sending ⟨.clo, 0, 0, 0, 0⟩ []).mode = .send ∧ (sending ⟨.clo, 0, 0, 0, 0⟩ []).tx.phase = .clo := ⟨rfl, rfl⟩

theorem witness_TxStepOffersOneByte :
    ∀ r ∈ [0, 1, 2], (sending ⟨.lo, 0, 2, 0x41, 0⟩ [r, 1]).mode = .send ∧
      (sending ⟨.lo, 0, 2, 0x41, 0⟩ [r, 1]).env.txAnswers = r :: [1] := by decide

/-- A SEND of one byte: six answers of 1. -/
theorem witness_SendDeliversFrame :
    let s := { idle [.command 0 1 0] [] with env := { (idle [.command 0 1 0] []).env with txAnswers := [1, 1, 1, 1, 1, 1] } }
    s.mode = .idle ∧ s.env.host = .command 0 1 0 :: [] ∧ s.env.txAnswers = List.replicate (2 * 1 + 4) 1 ++ [] := by decide

/-- A SEND of no bytes: the first and the last write fail. -/
theorem witness_SendStopsAtFailedWrite :
    ∀ k ∈ [0, 3], k < 2 * 0 + 4 ∧ (2 : Nat) ≠ 1 ∧
      ({ idle [.command 0 0 0] [] with env := { (idle [.command 0 0 0] []).env with
        txAnswers := List.replicate k 1 ++ [2] } } : State).env.txAnswers = List.replicate k 1 ++ 2 :: [] := by decide

/-- Elapsed time equal to the timeout. -/
theorem witness_RxSkipAndWait :
    (receiving rxIdle [] [] []).mode = .recv ∧ (0x03 : Byte) ≠ 0x02 ∧ rxIdle.haveStx = false ∧
      ((200 : Time) - rxIdle.t0).toNat ≤ rxIdle.timeout.toNat := by decide

/-- One millisecond more. -/
theorem witness_RxTimeoutStep :
    (receiving rxIdle [] [] []).mode = .recv ∧ rxIdle.timeout.toNat < ((201 : Time) - rxIdle.t0).toNat := by decide

theorem witness_RxStxStep : (receiving (rxAt true .lo 1 4 0x18 8) [] [] []).mode = .recv := rfl

theorem witness_RxEtxAndNibhiSteps :
    ∀ e ∈ [false, true], (receiving (rxAt e .hi 0 0 0 8) [] [] []).mode = .recv ∧ (rxAt e .hi 0 0 0 8).haveStx = true ∧
      (rxAt e .hi 0 0 0 8).phase = .hi := by decide

/-- The three endings: the checksum, the last byte that fits, the first that does not. -/
theorem witness_RxNibloStep :
    (receiving (rxAt true .lo 8 4 0 8) [] [] []).mode = .recv ∧ (rxAt true .lo 8 4 0 8).phase = .lo ∧
    ((rxAt false .lo 254 4 0 255).haveEtx = false ∧ (rxAt false .lo 254 4 0 255).pos.toNat < (rxAt false .lo 254 4 0 255).maxlen.toNat) ∧
    ((rxAt false .lo 255 4 0 255).haveEtx = false ∧ ¬ (rxAt false .lo 255 4 0 255).pos.toNat < (rxAt false .lo 255 4 0 255).maxlen.toNat) := by
  decide

theorem witness_RxPayAndOvfSteps :
    (receiving (rxAt false .hi 254 4 0 255) [] [] []).mode = .recv ∧ (rxAt false .hi 254 4 0 255).haveEtx = false ∧
      (rxAt false .hi 254 4 0 255).pos.toNat < (rxAt false .hi 254 4 0 255).maxlen.toNat ∧
      (rxAt false .hi 255 4 0 255).maxlen.toNat ≤ (rxAt false .hi 255 4 0 255).pos.toNat ∧
      (rxAt false .hi 0 4 0 0).maxlen.toNat ≤ (rxAt false .hi 0 4 0 0).pos.toNat := by decide

theorem witness_RxChkStep :
    ∀ cur ∈ [(0xA5 : Byte), 0xA4], (receiving (rxAt true .hi 2 cur 0xA5 8) [] [] []).mode = .recv ∧
      (rxAt true .hi 2 cur 0xA5 8).haveStx = true ∧ (rxAt true .hi 2 cur 0xA5 8).haveEtx = true := by decide

theorem witness_RxBadStep :
    (receiving (rxAt false .lo 0 4 0 8) [] [] []).mode = .recv ∧ (0x1F : Byte) ≠ 0x02 ∧ (0x1F : Byte) ≠ 0x03 ∧
      (0x1F : Byte).extractLsb' 4 4 ≠ (0x1F : Byte).extractLsb' 0 4 ^^^ 0xF#4 := by decide

theorem witness_RxPollStep :
    (receiving rxIdle [500] [2] [0x55]).mode = .recv ∧ (receiving rxIdle [500] [2] [0x55]).env.ticks = 500 :: [] ∧
      (receiving rxIdle [500] [2] [0x55]).env.rxAvail = 2 :: [] ∧ (receiving rxIdle [500] [2] [0x55]).env.rxBytes = 0x55 :: [] ∧
      (∀ d ∈ [200, 201], (receiving rxIdle [d] [0] []).env.ticks = d :: [] ∧ (receiving rxIdle [d] [0] []).env.rxAvail = 0 :: []) := by
  decide

theorem witness_MarkersAndBadReceived :
    (receiving rxIdle [] [] []).rx.haveStx = false ∧ (receiving (rxAt true .lo 0 0 0 8) [] [] []).rx.haveStx = true ∧
      classify 0x00 = .bad ∧ classify 0xFF = .bad := by decide

theorem witness_NibbleCodesReceived :
    (receiving (rxAt false .hi 0 0 0 8) [] [] []).mode = .recv ∧ (rxAt false .hi 0 0 0 8).phase = .hi ∧
      (rxAt true .lo 0 0 0 8).phase = .lo ∧ rxIdle.haveStx = false := by decide

theorem witness_UnreadBytesStay :
    (sending ⟨.stx, 0, 2, 0, 0⟩ []).mode ≠ .recv ∧ Instr.nib4.wf = true ∧ encode .nib4 = some (.wire 0x4B) ∧
      encode (.pair 0x41) = some (.pair 0x4B 0x1E) ∧ encode (.frame []) = some (.frame [0x02, 0x03, 0x0F, 0x0F]) := by
  refine ⟨?_, ?_, ?_, ?_, ?_⟩ <;> decide +kernel

theorem witness_PairAppendsByte :
    (receiving (rxAt false .hi 254 4 0 255) [] [] []).mode = .recv ∧ (rxAt false .hi 254 4 0 255).haveStx = true ∧
      (rxAt false .hi 254 4 0 255).phase = .hi ∧ (rxAt false .hi 254 4 0 255).pos.toNat < (rxAt false .hi 254 4 0 255).maxlen.toNat := by
  decide

/-- A payload that fills the buffer exactly. -/
theorem witness_FrameDeliversPayload :
    (receiving (rxAt false .lo 1 4 0 2) [] [] []).mode = .recv ∧ (receiving (rxAt false .lo 1 4 0 2) [] [] []).out.wf = true ∧
      [(0x41 : Byte), 0x42].length ≤ (rxAt false .lo 1 4 0 2).maxlen.toNat := by decide

/-- One byte more than the buffer, down to a buffer of none. -/
theorem witness_LongFrameOverflows :
    ∀ max ∈ [(0 : Byte), 1], (receiving (rxAt false .hi 0 0 0 max) [] [] []).mode = .recv ∧
      (receiving (rxAt false .hi 0 0 0 max) [] [] []).out.wf = true ∧
      (rxAt false .hi 0 0 0 max).maxlen.toNat < [(0x41 : Byte), 0x42].length ∧ [(0x41 : Byte), 0x42].length ≤ 255 := by decide

/-- Two bytes of noise, then the empty frame into a buffer of none, then one byte more. -/
theorem witness_RecvDeliversFrame :
    let s : State := { State.reset with env := { State.reset.env with
      host := [.command 1 0 100], ticks := [0, 1, 1, 1, 1, 1, 1], rxAvail := [1, 1, 2, 1, 1, 1]
      rxBytes := [0x55, 0x03] ++ frameBytes [] ++ [0xAA] } }
    s.mode = .idle ∧ s.out.wf = true ∧ s.env.ticks = 0 :: [1, 1, 1, 1, 1, 1] ∧ (∀ w ∈ [(0x55 : Byte), 0x03], w ≠ 0x02) ∧
      ([] : List Byte).length ≤ (0 : Byte).toNat ∧ readySteps (2 + (2 * 0 + 4)) [1, 1, 1, 1, 1, 1] s.env.rxAvail := by
  unfold readySteps; decide

/-- The first and the last code of the frame of one byte, bits 0 and 7. -/
theorem witness_FlippedBitEndsCorrupt :
    ∀ j ∈ [1, 5], ∀ k ∈ [0, 7],
      (receiving rxIdle (List.replicate 6 0) (List.replicate 6 1) []).mode = .recv ∧ rxIdle.haveStx = false ∧
      [(0x41 : Byte)].length ≤ rxIdle.maxlen.toNat ∧ j ≠ 0 ∧ j ≠ 2 * 1 + 1 ∧ ((frameBytes [0x41])[j]?).isSome = true ∧ k < 8 ∧
      readySteps (j + 1) (List.replicate 6 0) (List.replicate 6 1) := by
  unfold readySteps; decide +kernel

/-- Two end markers after the high code of the checksum. -/
theorem witness_UnalignedEndMarkerAccepted :
    (receiving rxIdle (List.replicate 7 0) (List.replicate 7 1) [0x02, 0x4B, 0x1E, 0x1E, 0x03, 0x03, 0x87]).env.rxBytes =
      ([0x02] ++ payloadBytes [0x41] ++ [encNib (hi4 (crcSeq [0x41]))] ++ List.replicate (1 + 1) 0x03 ++
        [encNib (lo4 (crcSeq [0x41]))]) ++ [] ∧
      readySteps 7 (List.replicate 7 0) (List.replicate 7 1) := by
  unfold readySteps; decide +kernel

/-- Samples at 150 and at exactly 200, then at 201. -/
theorem witness_SilenceTimesOut :
    let s : State := { receiving rxIdle ([50, 50] ++ 1 :: []) [0, 0, 0] [] with
      env := { (receiving rxIdle ([50, 50] ++ 1 :: []) [0, 0, 0] []).env with clock := 100 } }
    s.mode = .recv ∧ s.rx.t0 = BitVec.ofNat timeW 100 ∧ 100 ≤ s.env.clock ∧ s.env.rxAvail = List.replicate (2 + 1) 0 ++ [] ∧
      s.env.clock + [50, 50].sum - 100 ≤ s.rx.timeout.toNat ∧ s.rx.timeout.toNat < s.env.clock + [50, 50].sum + 1 - 100 ∧
      s.env.clock + [50, 50].sum + 1 - 100 < 2 ^ timeW := by decide

theorem witness_NoiseNeverEndsReceive :
    (receiving rxIdle [900, 900] [1, 1] [0x03, 0x4B, 0x02]).mode = .recv ∧ rxIdle.haveStx = false ∧
      (∀ w ∈ [(0x03 : Byte), 0x4B, 0x02].take 2, w ≠ 0x02) ∧ readySteps 2 [900, 900] [1, 1] := by
  unfold readySteps; decide

theorem witness_NoAnswerIsStuck :
    (sending ⟨.stx, 0, 2, 0, 0⟩ []).env.txAnswers = [] ∧ (receiving rxIdle [] [1] [0x02]).env.ticks = [] ∧
      (receiving rxIdle [1] [] [0x02]).env.rxAvail = [] ∧
      ((receiving rxIdle [1] [1] []).env.rxAvail = 1 :: [] ∧ (receiving rxIdle [1] [1] []).env.rxBytes = []) ∧
      (idle [] []).env.ticks = [] := by decide

/-- Each clause of UnselectedStepsRefused: no unit runs, every other sender phase, both sides of the deadline, no start
marker, and after one each nibble phase, the full buffer, the last free byte, and the end marker. -/
theorem witness_UnselectedStepsRefused :
    (State.reset.mode ≠ .send ∧ State.reset.mode ≠ .recv ∧ State.reset.mode = .idle) ∧
    (∀ p ∈ [TxPhase.stx, .hi, .lo, .etx, .chi, .clo], ∀ q ∈ [TxPhase.stx, .hi, .lo, .etx, .chi, .clo], q ≠ p →
      (sending ⟨q, 0, 2, 0, 0⟩ []).mode = .send ∧ (sending ⟨q, 0, 2, 0, 0⟩ []).tx.phase ≠ p) ∧
    ((receiving rxIdle [] [] []).mode = .recv ∧ rxIdle.haveStx = false ∧
      rxIdle.timeout.toNat < ((201 : Time) - rxIdle.t0).toNat ∧ ((200 : Time) - rxIdle.t0).toNat ≤ rxIdle.timeout.toNat) ∧
    (∀ r ∈ [rxAt false .lo 255 0 0 255, rxAt false .hi 254 0 0 255, rxAt true .hi 0 0 0 8],
      (receiving r [] [] []).mode = .recv ∧ r.haveStx = true) ∧
    ((rxAt false .lo 255 0 0 255).phase = .lo ∧ (rxAt false .lo 255 0 0 255).maxlen.toNat ≤ (rxAt false .lo 255 0 0 255).pos.toNat) ∧
    ((rxAt false .hi 254 0 0 255).phase = .hi ∧ (rxAt false .hi 254 0 0 255).haveEtx = false ∧
      (rxAt false .hi 254 0 0 255).pos.toNat < (rxAt false .hi 254 0 0 255).maxlen.toNat) ∧
    (rxAt true .hi 0 0 0 8).haveEtx = true := by decide

/-- Each clause of OperandsOutsideRangeRun: 256 bytes, a busy block, Idle and after a start marker, a byte of each other
class, the largest buffer. -/
theorem witness_OperandsOutsideRangeRun :
    255 < (List.replicate 256 (0 : Byte)).length ∧ (sending ⟨.stx, 0, 2, 0, 0⟩ []).mode ≠ .idle ∧
    (sending ⟨.stx, 0, 2, 0, 0⟩ []).mode ≠ .recv ∧ (receiving rxIdle [] [] []).mode = .recv ∧ rxIdle.haveStx = false ∧
    (∀ w ∈ [(0x02 : Byte), 0x03, 0x4B], classify w ≠ .bad) ∧ (rxAt false .hi 0 0 0 255).haveStx = true ∧
    (receiving (rxAt false .hi 0 0 0 255) [] [] []).mode = .recv ∧
    (receiving (rxAt false .hi 0 0 0 255) [] [] []).out.wf = true := by decide +kernel

end Sys2Proof.Tests
end

section
/-!
The numeric codes and the wire byte classes (30_encoding.md): the statements O13 and O22, and the laws of the codec they
are assembled from.
-/

namespace Sys2Proof.Machine

/-! ## The command port -/

/-- `cmd_op = 0` is SEND, which takes no timeout (30_encoding.md R101). -/
@[simp] theorem decodeCommand_zero (len : Byte) (timeout : Time) : decodeCommand 0 len timeout = .send len := rfl

/-- `cmd_op = 1` is RECV (30_encoding.md R101). -/
@[simp] theorem decodeCommand_one (len : Byte) (timeout : Time) : decodeCommand 1 len timeout = .recv len timeout := rfl

/-! ## Nibble codes by their bits -/

/-- A nibble code is the nibble followed by its complement (30_encoding.md R93). -/
theorem encNib_eq_append (n : Nibble) : encNib n = n ++ (n ^^^ 0xF#4) := by
  revert n; decide

theorem decNib_eq_none {w : Byte} : decNib w = none ↔ hi4 w ≠ lo4 w ^^^ Config.nibbleMask := by
  simp [decNib, decValid]

theorem encNib_injective : Function.Injective encNib := by
  intro n m h
  have hd : decNib (encNib n) = decNib (encNib m) := congrArg decNib h
  simpa using hd

/-! ## The class BAD -/

/-- BAD is the last class of the order in which R91 tests them. -/
theorem classify_eq_bad {w : Byte} :
    classify w = .bad ↔ w ≠ Config.stx ∧ w ≠ Config.etx ∧ hi4 w ≠ lo4 w ^^^ Config.nibbleMask := by
  by_cases hs : w = Config.stx
  · simp [hs]
  by_cases he : w = Config.etx
  · simp [he]
  rw [← decNib_eq_none]
  cases hn : decNib w <;> simp [classify, hs, he, hn]

/-- The wire bytes of the other three classes: the two markers and the sixteen nibble codes (30_encoding.md R91). -/
def knownBytes : Finset Byte := insert Config.stx (insert Config.etx (Finset.univ.image encNib))

theorem mem_knownBytes {w : Byte} : w ∈ knownBytes ↔ classify w ≠ .bad := by
  simp only [knownBytes, Finset.mem_insert, Finset.mem_image, Finset.mem_univ, true_and]
  constructor
  · rintro (rfl | rfl | ⟨n, rfl⟩) <;> simp
  · intro h
    cases hc : classify w with
    | stx => exact .inl (classify_eq_stx.mp hc)
    | etx => exact .inr (.inl (classify_eq_etx.mp hc))
    | nib n => exact .inr (.inr ⟨n, (classify_eq_nib.mp hc).symm⟩)
    | bad => exact absurd hc h

/-- No marker is a nibble code, and no two nibbles have one code. -/
theorem card_knownBytes : knownBytes.card = 18 := by
  have hs : ∀ n, encNib n ≠ Config.stx := by decide
  have he : ∀ n, encNib n ≠ Config.etx := by decide
  have hm : Config.stx ≠ Config.etx := by decide
  have hc : (Finset.univ.image encNib).card = 16 := Finset.card_image_of_injective _ encNib_injective
  rw [knownBytes, Finset.card_insert_of_notMem (by simp [hs, hm]), Finset.card_insert_of_notMem (by simp [he]), hc]

/-- The values of the known bytes among the numbers below 256. -/
theorem badValues_eq_sdiff :
    (Finset.range 256).filter (fun k => classify (BitVec.ofNat 8 k) = .bad) =
      Finset.range 256 \ knownBytes.image BitVec.toNat := by
  ext k
  simp only [Finset.mem_filter, Finset.mem_sdiff, Finset.mem_range, Finset.mem_image, mem_knownBytes]
  refine and_congr_right fun hk => ⟨?_, fun h => ?_⟩
  · rintro hb ⟨w, hw, rfl⟩
    exact hw (by simpa using hb)
  · by_contra hb
    exact h ⟨BitVec.ofNat 8 k, hb, by simpa using hk⟩

/-- The BAD values (30_encoding.md R94): the 256 bytes less the eighteen of the other classes. -/
theorem card_badValues : ((Finset.range 256).filter (fun k => classify (BitVec.ofNat 8 k) = .bad)).card = 238 := by
  have hsub : knownBytes.image BitVec.toNat ⊆ Finset.range 256 := by
    intro k hk
    obtain ⟨w, -, rfl⟩ := Finset.mem_image.mp hk
    exact Finset.mem_range.mpr w.isLt
  have hinj : Function.Injective (BitVec.toNat : Byte → Nat) := fun _ _ => BitVec.eq_of_toNat_eq
  rw [badValues_eq_sdiff, Finset.card_sdiff_of_subset hsub, Finset.card_image_of_injective _ hinj, card_knownBytes,
    Finset.card_range]

/-! ## The statements -/

/-- Settles O13: each code by evaluation, the two commands by what the command port decodes to. -/
theorem numericCodes : Obligations.NumericCodes :=
  ⟨rfl, rfl, rfl, rfl, fun len timeout => ⟨decodeCommand_zero len timeout, decodeCommand_one len timeout⟩⟩

/-- Settles O22: the class of a byte is read off its bits, and what is not one of the eighteen known bytes is BAD. -/
theorem wireByteClasses : Obligations.WireByteClasses := by
  refine ⟨by decide, fun w => ⟨classify_eq_stx, classify_eq_etx, fun n => ?_, classify_eq_bad⟩, card_badValues⟩
  rw [classify_eq_nib, encNib_eq_append]

end Sys2Proof.Machine
end

section
/-!
The checksum unit (40_checksum.md): the equations of the bit step and of the byte step, what the two operations answer,
and the statement O14.
-/

namespace Sys2Proof.Machine

/-! ## The functions of the unit -/

/-- One bit step with the polynomial constant written out (40_checksum.md R121). -/
theorem crcBit_eq (acc : Byte) (bit : Bool) :
    crcBit acc bit = if (acc.getLsbD 0 ^^ bit) = true then (acc >>> 1) ^^^ 0x8C else acc >>> 1 := rfl

/-- The loop of the byte step, unrolled: bit 0 of `d` is mixed in first (40_checksum.md R122). -/
theorem crcByte_eq (acc d : Byte) :
    crcByte acc d = crcBit (crcBit (crcBit (crcBit (crcBit (crcBit (crcBit (crcBit acc (d.getLsbD 0))
      (d.getLsbD 1)) (d.getLsbD 2)) (d.getLsbD 3)) (d.getLsbD 4)) (d.getLsbD 5)) (d.getLsbD 6)) (d.getLsbD 7) := by
  simp only [crcByte, List.foldl_cons, List.foldl_nil]

/-! ## The operations of the unit -/

/-- CRC.BIT writes the bit step to the unit's output and nothing else. -/
theorem exec_crcBit (acc : Byte) (bit : Bool) (s : State) :
    exec (.crcBit acc bit) s = .next { s with unitOut := .byte (crcBit acc bit) } := rfl

/-- CRC.BYTE writes the byte step to the unit's output and nothing else. -/
theorem exec_crcByte (acc d : Byte) (s : State) :
    exec (.crcByte acc d) s = .next { s with unitOut := .byte (crcByte acc d) } := rfl

/-! ## The statement -/

/-- Settles O14: each operation answers its function's value, and that value is the rule's by the function's equation. -/
theorem crcStepAnswers : Obligations.CrcStepAnswers := by
  intro s
  constructor
  · intro acc bit
    rw [exec_crcBit, crcBit_eq]
  · intro acc d
    rw [exec_crcByte, crcByte_eq]

end Sys2Proof.Machine
end

section
/-!
The codec (41_codec.md): its functions by the bits of their operands, what its five operations answer, and the statements
O19 and O20.
-/

namespace Sys2Proof.Machine

/-! ## The functions of the codec -/

/-- The shifted nibbles do not overlap: the assembled byte is the two nibbles one after the other (41_codec.md R144). -/
theorem joinNibbles_eq_append (n1 n2 : Nibble) : joinNibbles n1 n2 = n1 ++ n2 := by
  revert n1 n2; decide

theorem encByte_eq_append (b : Byte) :
    encByte b = (hi4 b ++ (hi4 b ^^^ 0xF#4), lo4 b ++ (lo4 b ^^^ 0xF#4)) := by
  simp only [encByte, encNib_eq_append]

/-- The validity test with the complement mask written out (41_codec.md R142). -/
theorem decValid_eq (w : Byte) : decValid w = (hi4 w == (lo4 w ^^^ 0xF#4)) := rfl

theorem decValid_iff {w : Byte} : decValid w = true ↔ hi4 w = lo4 w ^^^ 0xF#4 := by
  rw [decValid_eq, beq_iff_eq]

/-- The decoder of one byte with the validity test written on the bits (41_codec.md R143). -/
theorem decNib_eq_ite (w : Byte) : decNib w = if hi4 w = lo4 w ^^^ 0xF#4 then some (hi4 w) else none := by
  simp only [decNib, decValid_iff]

/-- That `w2` is not examined when `w1` fails does not show in the answer: both bytes must be valid (41_codec.md R144). -/
theorem decPair_eq_ite (w1 w2 : Byte) :
    decPair w1 w2 = if hi4 w1 = lo4 w1 ^^^ 0xF#4 ∧ hi4 w2 = lo4 w2 ^^^ 0xF#4 then some (hi4 w1 ++ hi4 w2) else none := by
  by_cases h1 : hi4 w1 = lo4 w1 ^^^ 0xF#4
  · by_cases h2 : hi4 w2 = lo4 w2 ^^^ 0xF#4
    · simp only [decPair, decNib_eq_ite, if_pos h1, if_pos h2, if_pos (And.intro h1 h2), joinNibbles_eq_append]
    · simp only [decPair, decNib_eq_ite, if_pos h1, if_neg h2, if_neg (not_and_of_not_right _ h2)]
  · simp only [decPair, decNib_eq_ite, if_neg h1, if_neg (not_and_of_not_left _ h1)]

/-! ## The operations of the codec: each writes its function's value to the unit's output and nothing else -/

theorem exec_encNib (n : Nibble) (s : State) :
    exec (.encNib n) s = .next { s with unitOut := .byte (encNib n) } := rfl

theorem exec_encByte (b : Byte) (s : State) :
    exec (.encByte b) s = .next { s with unitOut := .pair (encByte b).1 (encByte b).2 } := rfl

theorem exec_decValid (w : Byte) (s : State) :
    exec (.decValid w) s = .next { s with unitOut := .bit (decValid w) } := rfl

theorem exec_decNib (w : Byte) (s : State) :
    exec (.decNib w) s = .next { s with unitOut := .nibbleResult (decNib w) } := rfl

theorem exec_decPair (w1 w2 : Byte) (s : State) :
    exec (.decPair w1 w2) s = .next { s with unitOut := .byteResult (decPair w1 w2) } := rfl

/-! ## The statements -/

/-- Settles O19: both operations answer nibble codes, and a nibble code is the nibble followed by its complement. -/
theorem encoderAnswers : Obligations.EncoderAnswers := by
  intro s
  constructor
  · intro n
    rw [exec_encNib, encNib_eq_append]
  · intro b
    rw [exec_encByte, encByte_eq_append, hi4, lo4]

/-- Settles O20: each operation answers its function's value, and that value is the rule's by the function's equation. -/
theorem decoderAnswers : Obligations.DecoderAnswers := by
  intro s
  refine ⟨fun w => ?valid, fun w => ?nib, fun w1 w2 => ?pair⟩
  case valid => rw [exec_decValid, decValid_eq, hi4, lo4]
  case nib => rw [exec_decNib, decNib_eq_ite, hi4, lo4]
  case pair => rw [exec_decPair, decPair_eq_ite, hi4, hi4, lo4, lo4]

end Sys2Proof.Machine
end

section
/-!
The acceptance of SEND and the sender's steps (42_frame_sender.md): the two ends of a write in the words of the
statements, the row of each phase as its sender step, and the statements O26, O29 to O34.
-/

namespace Sys2Proof.Machine

open Claims

/-! ## The acceptance of SEND -/

/-- An idle block is ready for a command (10_state.md R36). -/
theorem cmdReady_iff {s : State} : s.cmdReady = true ↔ s.mode = .idle := by
  rw [State.cmdReady, decide_eq_true_iff]

theorem exec_send_of_idle {s : State} (len : Byte) (h : s.mode = .idle) :
    exec (.send len) s = .next (sendStart len s) :=
  if_pos (cmdReady_iff.mpr h)

/-! ## The selection of a sender step -/

theorem sends_iff {s : State} {p : TxPhase} : s.sends p = true ↔ s.mode = .send ∧ s.tx.phase = p := by
  rw [State.sends, Bool.and_eq_true, decide_eq_true_iff, decide_eq_true_iff]

/-- The row of the current phase is the step that TX.STEP takes (42_frame_sender.md R161). -/
theorem exec_senderInstr {s : State} {p : TxPhase} (hm : s.mode = .send) (hp : s.tx.phase = p) :
    exec (senderInstr p) s = senderStep p s := by
  subst hp
  calc exec (senderInstr s.tx.phase) s = step s := by simp only [step, fetch, hm]
    _ = senderStep s.tx.phase s := step_send hm

/-! ## One write -/

/-- What a sender step does once the transport has answered `r`, in the words of the statements (R161, R168). -/
theorem offer_answered {w : Byte} {adv : State → State} {s : State} {r : Nat} {rest : List Nat}
    (h : s.env.txAnswers = r :: rest) :
    offer w adv s =
      if r = 1 then .next (adv (offered w r rest s)) else .next (failed .transport (offered w r rest s)) := by
  by_cases h1 : r = 1
  · subst h1
    rw [if_pos rfl]
    exact offer_one h
  · rw [if_neg h1]
    exact offer_other h h1

/-! ## What follows an accepted write -/

/-- An empty payload goes straight to the end marker (R164). -/
theorem afterStx_eq (s : State) :
    afterStx s = { s with tx := { s.tx with phase := if s.tx.len = 0 then .etx else .hi } } := by
  by_cases h : s.tx.len = 0
  · rw [afterStx, if_pos h, if_pos h, setTxPhase]
  · rw [afterStx, if_neg h, if_neg h, setTxPhase]

/-- Another payload byte is left (R163). -/
theorem afterLo_of_lt {s : State} (h : s.tx.idx.toNat + 1 < s.tx.len.toNat) :
    afterLo s = { s with tx := { s.tx with idx := BitVec.ofNat 8 (s.tx.idx.toNat + 1), phase := .hi } } := by
  have hidx : s.tx.idx + 1 = BitVec.ofNat 8 (s.tx.idx.toNat + 1) := by
    rw [BitVec.ofNat_add, BitVec.ofNat_toNat, BitVec.setWidth_eq]
    rfl
  rw [afterLo, if_pos h, hidx]

/-- The payload's last byte has been offered (R163). -/
theorem afterLo_of_not_lt {s : State} (h : ¬ s.tx.idx.toNat + 1 < s.tx.len.toNat) :
    afterLo s = { s with tx := { s.tx with phase := .etx } } := by
  rw [afterLo, if_neg h, setTxPhase]

/-! ## The two outcomes -/

theorem exec_txFail_of_send {s : State} (h : s.mode = .send) : exec .txFail s = .next (raise .transport s) :=
  if_pos h

theorem exec_txDone_of_clo {s : State} (hm : s.mode = .send) (hp : s.tx.phase = .clo) :
    exec .txDone s = .next (complete 0 s) :=
  if_pos (sends_iff.mpr ⟨hm, hp⟩)

/-! ## The statements -/

/-- Settles O26: the next state is `sendStart len s`, whose fields are known by definition. -/
theorem sendAccepted : Obligations.SendAccepted := by
  intro s len h
  exact ⟨sendStart len s, exec_send_of_idle len h, rfl, rfl, rfl, rfl, rfl, rfl, rfl, rfl, rfl, rfl, rfl, rfl, rfl⟩

/-- Settles O29: one write of 0x02, then `afterStx`. -/
theorem txStxStep : Obligations.TxStxStep := by
  intro s r rest hm hp hr
  calc exec .txStx s = offer 0x02 afterStx s := exec_senderInstr hm hp
    _ = _ := offer_answered hr
    _ = _ := by rw [afterStx_eq]; rfl

/-- Settles O30: the payload byte is loaded before the write, so the state that offers is `loadPay s` in both cases. -/
theorem txHiStep : Obligations.TxHiStep := by
  intro s r rest b hm hp hr hb
  subst hb
  have hload : (loadPay s).env.txAnswers = r :: rest := by rw [loadPay_env, hr]
  calc exec .txHi s = offer (encNib (hi4 (s.pay.read s.tx.idx.toNat))) (setTxPhase .lo) (loadPay s) :=
        exec_senderInstr hm hp
    _ = _ := offer_answered hload

/-- Settles O31: one write, then by the comparison of R163 the next byte or the end marker. -/
theorem txLoStep : Obligations.TxLoStep := by
  intro s r rest hm hp hr
  have hwrite : exec .txLo s = _ := (exec_senderInstr hm hp).trans (offer_answered hr)
  by_cases hlt : s.tx.idx.toNat + 1 < s.tx.len.toNat
  · rw [hwrite, if_pos hlt, afterLo_of_lt (s := offered _ r rest s) hlt]
    rfl
  · rw [hwrite, if_neg hlt, afterLo_of_not_lt (s := offered _ r rest s) hlt]
    rfl

/-- Settles O32: one write of 0x03, then the checksum's high nibble. -/
theorem txEtxStep : Obligations.TxEtxStep := by
  intro s r rest hm hp hr
  calc exec .txEtx s = offer 0x03 (setTxPhase .chi) s := exec_senderInstr hm hp
    _ = _ := offer_answered hr

/-- Settles O33: one write for each nibble of the checksum; the second one ends the command. -/
theorem txChecksumSteps : Obligations.TxChecksumSteps := by
  intro s r rest hm hr
  constructor
  · intro hp
    calc exec .txChi s = offer (encNib (hi4 s.tx.acc)) (setTxPhase .clo) s := exec_senderInstr hm hp
      _ = _ := offer_answered hr
  · intro hp
    calc exec .txClo s = offer (encNib (lo4 s.tx.acc)) (complete 0) s := exec_senderInstr hm hp
      _ = _ := offer_answered hr

/-- Settles O34: TX.FAIL is `raise TRANSPORT`, TX.DONE is `complete(1, 0)`. -/
theorem txOutcomes : Obligations.TxOutcomes := by
  intro s hm
  exact ⟨exec_txFail_of_send hm, exec_txDone_of_clo hm⟩

end Sys2Proof.Machine
end

section
/-!
The acceptance of RECV and the receiver's outcomes (43_frame_receiver.md): when a state selects an outcome, what each
outcome is once it is selected, and the statements O27, O38 to O45.
-/

namespace Sys2Proof.Machine

open Claims

/-! ## The acceptance of RECV -/

theorem sampleClock_tick {s : State} {d : Nat} {ts : List Nat} (h : s.env.ticks = d :: ts) :
    sampleClock s = some { s with env := { s.env with clock := s.env.clock + d, ticks := ts } } := by
  simp only [sampleClock, h]

/-- The registers are set at the state after the acceptance's clock sample (R200). -/
theorem exec_recv_of_idle {s : State} {d : Nat} {ts : List Nat} (max : Byte) (timeout : Time) (hm : s.mode = .idle)
    (ht : s.env.ticks = d :: ts) :
    exec (.recv max timeout) s =
      .next (recvStart max timeout { s with env := { s.env with clock := s.env.clock + d, ticks := ts } }) := by
  have hexec : exec (.recv max timeout) s = execRecv max timeout s := rfl
  rw [hexec, execRecv, if_pos (cmdReady_iff.mpr hm), sampleClock_tick ht]

/-! ## When a state selects an outcome -/

theorem receives_iff {s : State} : s.receives = true ↔ s.mode = .recv ∧ s.rx.haveStx = true := by
  rw [State.receives, Bool.and_eq_true, decide_eq_true_iff]

theorem isIdle_iff {r : RxRegs} : r.isIdle = true ↔ r.haveStx = false := by
  rw [RxRegs.isIdle, Bool.not_eq_true']

theorem isCollecting_iff {r : RxRegs} : r.isCollecting = true ↔ r.haveStx = true ∧ r.haveEtx = false := by
  rw [RxRegs.isCollecting, Bool.and_eq_true, Bool.not_eq_true']

theorem isChecksumPending_iff {r : RxRegs} : r.isChecksumPending = true ↔ r.haveStx = true ∧ r.haveEtx = true := by
  rw [RxRegs.isChecksumPending, Bool.and_eq_true]

/-- The deadline as a comparison of numbers; the elapsed time wraps, the comparison does not (R204, R219). -/
theorem deadlinePassed_iff {now t0 timeout : Time} :
    deadlinePassed now t0 timeout = true ↔ timeout.toNat < (now - t0).toNat := by
  rw [deadlinePassed, decide_eq_true_iff, BitVec.lt_def, elapsed]

theorem deadlinePassed_eq_false_iff {now t0 timeout : Time} :
    deadlinePassed now t0 timeout = false ↔ (now - t0).toNat ≤ timeout.toNat := by
  rw [← Bool.not_eq_true, deadlinePassed_iff, Nat.not_lt]

/-! ## The outcomes without a byte, and before a start marker -/

theorem exec_rxSkip_of_idle {s : State} (w : Byte) (hm : s.mode = .recv) (hs : s.rx.haveStx = false) :
    exec (.rxSkip w) s = .next s :=
  if_pos ⟨hm, isIdle_iff.mpr hs⟩

theorem exec_rxWait_of_le {s : State} {now : Time} (hm : s.mode = .recv)
    (h : (now - s.rx.t0).toNat ≤ s.rx.timeout.toNat) : exec (.rxWait now) s = .next s :=
  if_pos ⟨hm, deadlinePassed_eq_false_iff.mpr h⟩

theorem exec_rxTimeout_of_lt {s : State} {now : Time} (hm : s.mode = .recv)
    (h : s.rx.timeout.toNat < (now - s.rx.t0).toNat) : exec (.rxTimeout now) s = .next (raise .timeout s) :=
  if_pos ⟨hm, deadlinePassed_iff.mpr h⟩

theorem exec_rxStx_of_recv {s : State} (now : Time) (hm : s.mode = .recv) :
    exec (.rxStx now) s = .next (startFrame now s) :=
  if_pos hm

/-! ## The outcomes after a start marker -/

section Receiving

variable {s : State} (hm : s.mode = .recv) (hs : s.rx.haveStx = true)
include hm hs

theorem exec_rxEtx_of_receiving : exec .rxEtx s = .next (endPayload s) :=
  if_pos (receives_iff.mpr ⟨hm, hs⟩)

theorem exec_rxBad_of_receiving (w : Byte) : exec (.rxBad w) s = .next (raise .corrupt s) :=
  if_pos (receives_iff.mpr ⟨hm, hs⟩)

theorem exec_rxNibhi_of_hi (n : Nibble) (hp : s.rx.phase = .hi) : exec (.rxNibhi n) s = .next (holdNibble n s) :=
  if_pos ⟨receives_iff.mpr ⟨hm, hs⟩, hp⟩

theorem exec_rxNiblo_of_lo (n : Nibble) (hp : s.rx.phase = .lo) : exec (.rxNiblo n) s = .next (lowNibble n s) :=
  if_pos ⟨receives_iff.mpr ⟨hm, hs⟩, hp⟩

theorem exec_rxPay_of_lt (he : s.rx.haveEtx = false) (hlt : s.rx.pos.toNat < s.rx.maxlen.toNat) :
    exec .rxPay s = .next (appendByte s) :=
  if_pos ⟨receives_iff.mpr ⟨hm, hs⟩, isCollecting_iff.mpr ⟨hs, he⟩, BitVec.lt_def.mpr hlt⟩

theorem exec_rxOvf_of_not_lt (he : s.rx.haveEtx = false) (hlt : ¬ s.rx.pos.toNat < s.rx.maxlen.toNat) :
    exec .rxOvf s = .next (raise .overflow s) :=
  if_pos ⟨receives_iff.mpr ⟨hm, hs⟩, isCollecting_iff.mpr ⟨hs, he⟩, mt BitVec.lt_def.mp hlt⟩

theorem exec_rxChk_of_pending (he : s.rx.haveEtx = true) : exec .rxChk s = .next (checkSum s) :=
  if_pos ⟨receives_iff.mpr ⟨hm, hs⟩, isChecksumPending_iff.mpr ⟨hs, he⟩⟩

end Receiving

/-! ## The received byte -/

/-- A held nibble with four zero bits before it: the rules' zero-extension (R207, R212). -/
theorem zero_append_nibble (n : Nibble) : 0#4 ++ n = n.setWidth 8 := by
  revert n; decide

/-- The shift of RX.NIBLO drops the high half of the held byte (R212). -/
theorem shiftLeft_four_eq_lo4 (cur : Byte) : cur <<< 4 = (lo4 cur).setWidth 8 <<< 4 := by
  revert cur; decide

/-- So the assembled byte is the held low half followed by the new nibble, whatever was held before (R212). -/
theorem shift_or_nibble (cur : Byte) (n : Nibble) : (cur <<< 4) ||| n.setWidth 8 = cur.extractLsb' 0 4 ++ n := by
  rw [shiftLeft_four_eq_lo4, join_held, joinNibbles_eq_append, lo4]

/-! ## The endings of a pair -/

/-- The position as the number the rule raises by one (R208). -/
theorem appendByte_eq (s : State) :
    appendByte s = { s with
      out := s.out.write s.rx.pos.toNat s.rx.cur
      rx := { s.rx with acc := crcByte s.rx.acc s.rx.cur, pos := BitVec.ofNat 8 (s.rx.pos.toNat + 1) } } := by
  have hpos : s.rx.pos + 1 = BitVec.ofNat 8 (s.rx.pos.toNat + 1) := by simp [BitVec.ofNat_add]
  rw [appendByte, hpos]

/-- The comparison in the words of the statements (R210). -/
theorem checkSum_eq (s : State) :
    checkSum s = if s.rx.cur = s.rx.acc then succeeded s.rx.pos s else failed .checksum s := rfl

/-- The comparison reads the registers and writes only the results and `mode` (R210). -/
theorem checkSum_frame (s : State) :
    (checkSum s).rx = s.rx ∧ (checkSum s).tx = s.tx ∧ (checkSum s).pay = s.pay ∧ (checkSum s).env = s.env := by
  by_cases h : s.rx.cur = s.rx.acc
  · rw [checkSum, if_pos h]
    exact ⟨rfl, rfl, rfl, rfl⟩
  · rw [checkSum, if_neg h]
    exact ⟨rfl, rfl, rfl, rfl⟩

/-- What RX.NIBLO leaves whatever its ending: the assembled byte at `rx.phase` HI, and nothing outside the receiver, OUT
and the results (R212). -/
theorem lowNibble_frame (n : Nibble) (s : State) :
    (lowNibble n s).rx.phase = .hi ∧ (lowNibble n s).rx.cur = s.rx.cur.extractLsb' 0 4 ++ n ∧
      (lowNibble n s).env = s.env ∧ (lowNibble n s).tx = s.tx ∧ (lowNibble n s).pay = s.pay := by
  rw [← shift_or_nibble]
  obtain ⟨-, h⟩ | ⟨-, -, h⟩ | ⟨-, -, h⟩ := lowNibble_cases n s
  · obtain ⟨hrx, htx, hpay, henv⟩ := checkSum_frame (joinNibble n s)
    rw [h, hrx, htx, hpay, henv]
    exact ⟨rfl, rfl, rfl, rfl, rfl⟩
  · rw [h]
    exact ⟨rfl, rfl, rfl, rfl, rfl⟩
  · rw [h]
    exact ⟨rfl, rfl, rfl, rfl, rfl⟩

/-- RX.NIBLO is the ending's own row at the state with the assembled byte (R212). -/
theorem exec_rxNiblo_eq_ending {s : State} (n : Nibble) (hm : s.mode = .recv) (hs : s.rx.haveStx = true)
    (hp : s.rx.phase = .lo) :
    exec (.rxNiblo n) s =
      if s.rx.haveEtx = true then exec .rxChk (joinNibble n s)
      else if s.rx.pos.toNat < s.rx.maxlen.toNat then exec .rxPay (joinNibble n s)
      else exec .rxOvf (joinNibble n s) := by
  have hm' : (joinNibble n s).mode = .recv := hm
  have hs' : (joinNibble n s).rx.haveStx = true := hs
  rw [exec_rxNiblo_of_lo hm hs n hp]
  obtain ⟨he, h⟩ | ⟨he, hlt, h⟩ | ⟨he, hlt, h⟩ := lowNibble_cases n s
  · rw [if_pos he, exec_rxChk_of_pending hm' hs' he, h]
  · have hlt' : s.rx.pos.toNat < s.rx.maxlen.toNat := BitVec.lt_def.mp hlt
    rw [if_neg (Bool.eq_false_iff.mp he), if_pos hlt', exec_rxPay_of_lt hm' hs' he hlt', h]
  · have hlt' : ¬ s.rx.pos.toNat < s.rx.maxlen.toNat := mt BitVec.lt_def.mpr hlt
    rw [if_neg (Bool.eq_false_iff.mp he), if_neg hlt', exec_rxOvf_of_not_lt hm' hs' he hlt', h]

/-! ## The statements -/

/-- Settles O27: the next state is `recvStart max timeout` of the state after the clock sample. -/
theorem recvAccepted : Obligations.RecvAccepted := by
  intro s max timeout d ts hm ht
  exact ⟨_, exec_recv_of_idle max timeout hm ht, rfl, rfl, rfl, rfl, rfl, rfl, rfl, rfl, rfl, rfl, rfl, rfl, rfl⟩

/-- Settles O38: both outcomes are selected and leave the state as it is; the deadline test is strict. -/
theorem rxSkipAndWait : Obligations.RxSkipAndWait := by
  intro s hm
  exact ⟨fun w _ hs => exec_rxSkip_of_idle w hm hs, fun _ h => exec_rxWait_of_le hm h⟩

/-- Settles O39: RX.TIMEOUT is `raise TIMEOUT` once the deadline has passed. -/
theorem rxTimeoutStep : Obligations.RxTimeoutStep := by
  intro s now hm h
  exact exec_rxTimeout_of_lt hm h

/-- Settles O40: RX.STX is `startFrame`, selected by the mode alone. -/
theorem rxStxStep : Obligations.RxStxStep := by
  intro s now hm
  exact exec_rxStx_of_recv now hm

/-- Settles O41: RX.ETX is `endPayload`, RX.NIBHI is `holdNibble`. -/
theorem rxEtxAndNibhiSteps : Obligations.RxEtxAndNibhiSteps := by
  intro s hm hs
  refine ⟨exec_rxEtx_of_receiving hm hs, fun n hp => ?_⟩
  rw [exec_rxNibhi_of_hi hm hs n hp, zero_append_nibble, holdNibble]

/-- Settles O42: the state `u` of the statement is `joinNibble n s`, at which the ending's own row acts. -/
theorem rxNibloStep : Obligations.RxNibloStep := by
  intro s u n hm hs hp hu
  have hjoin : u = joinNibble n s := by rw [hu, zero_append_nibble, joinNibble]
  subst hjoin
  exact ⟨exec_rxNiblo_eq_ending n hm hs hp, lowNibble n s, exec_rxNiblo_of_lo hm hs n hp, lowNibble_frame n s⟩

/-- Settles O43: RX.PAY is `appendByte` below the capacity, RX.OVF is `raise OVERFLOW` at it. -/
theorem rxPayAndOvfSteps : Obligations.RxPayAndOvfSteps := by
  intro s hm hs he
  refine ⟨fun hlt => ?_, fun hle => exec_rxOvf_of_not_lt hm hs he (Nat.not_lt.mpr hle)⟩
  rw [exec_rxPay_of_lt hm hs he hlt, appendByte_eq]

/-- Settles O44: RX.CHK is `checkSum`, whose two answers are the statement's. -/
theorem rxChkStep : Obligations.RxChkStep := by
  intro s hm hs he
  rw [exec_rxChk_of_pending hm hs he, checkSum_eq, apply_ite Host.Outcome.next]

/-- Settles O45: RX.BAD is `raise CORRUPT` after a start marker, whatever the nibble phase and the end marker. -/
theorem rxBadStep : Obligations.RxBadStep := by
  intro s w hm hs _ _ _
  exact exec_rxBad_of_receiving hm hs w

end Sys2Proof.Machine
end

section
/-!
The exits of a command (60_exceptions.md section 2): `raise` and `complete` in the words of the statements, what they
answer as instructions in a busy block, and the statement O12.
-/

namespace Sys2Proof.Machine

open Claims

/-- The block is busy while any command runs (10_state.md R21, R37). -/
theorem busy_iff {s : State} : s.busy = true ↔ s.mode ≠ .idle := by
  rw [State.busy, decide_eq_true_iff]

/-! ## The writes of the two exits -/

/-- The four writes of R256 are to different registers, so their order does not show. -/
theorem raise_eq_failed (c : Cause) (s : State) : raise c s = failed c s := rfl

/-- The four writes of R257 are to different registers, so their order does not show. -/
theorem complete_eq_succeeded (len : Byte) (s : State) : complete len s = succeeded len s := rfl

/-! ## The two exits as instructions -/

/-- Which command runs is not asked (log entry 20), only that the cause is one of the five failures (R250). -/
theorem exec_raise_of_busy {s : State} {c : Cause} (hm : s.mode ≠ .idle) (hc : c ≠ .none) :
    exec (.raise c) s = .next (raise c s) :=
  calc exec (.raise c) s = if c = .none then .next (raiseUnstated s) else .next (raise c s) :=
        if_pos (busy_iff.mpr hm)
    _ = .next (raise c s) := if_neg hc

/-- Neither the command nor the operand `ok` is asked (log entries 19 and 20). -/
theorem exec_complete_of_busy {s : State} (ok : Bool) (len : Byte) (hm : s.mode ≠ .idle) :
    exec (.complete ok len) s = .next (complete len s) :=
  if_pos (busy_iff.mpr hm)

/-! ## The statement -/

/-- Settles O12: in a busy block each exit answers its own writes, which are those of `failed` and `succeeded`. -/
theorem exitsWriteResults : Obligations.ExitsWriteResults := by
  intro s hm
  constructor
  · intro c hc
    rw [exec_raise_of_busy hm hc, raise_eq_failed]
  · intro len
    rw [exec_complete_of_busy true len hm, complete_eq_succeeded]

end Sys2Proof.Machine
end

section
/-!
The checksum as a linear code (40_checksum.md R125, R126): CRC.BYTE is linear over exclusive-or, vanishes when the data
byte equals the accumulator, and on a zero accumulator only when the data byte is zero. The statements O15 to O18.
-/

namespace Sys2Proof.Machine

open Claims

/-! ## Linearity -/

/-- The polynomial is mixed in by the exclusive-or of two linear conditions, and the shift distributes (R121). -/
theorem crcBit_xor (a a' : Byte) (b b' : Bool) : crcBit (a ^^^ a') (b ^^ b') = crcBit a b ^^^ crcBit a' b' := by
  have hmix : ((a ^^^ a').getLsbD 0 ^^ (b ^^ b')) = ((a.getLsbD 0 ^^ b) ^^ (a'.getLsbD 0 ^^ b')) := by
    simp only [BitVec.getLsbD_xor, Bool.xor_assoc, Bool.xor_left_comm]
  have hself : ∀ x y : Byte, (x ^^^ Config.poly) ^^^ (y ^^^ Config.poly) = x ^^^ y := by
    intro x y
    calc (x ^^^ Config.poly) ^^^ (y ^^^ Config.poly) = (x ^^^ y) ^^^ (Config.poly ^^^ Config.poly) := by ac_rfl
      _ = x ^^^ y := by rw [BitVec.xor_self, BitVec.xor_zero]
  simp only [crcBit, hmix, BitVec.ushiftRight_xor_distrib]
  cases a.getLsbD 0 ^^ b <;> cases a'.getLsbD 0 ^^ b'
  case false.false => simp
  case false.true => simp [BitVec.xor_assoc]
  case true.false => simp only [Bool.true_bne, Bool.not_false, if_true, if_false, Bool.false_eq_true]; ac_rfl
  case true.true => simp [hself]

theorem crcByte_xor (a a' d d' : Byte) : crcByte (a ^^^ a') (d ^^^ d') = crcByte a d ^^^ crcByte a' d' := by
  simp only [crcByte_eq, BitVec.getLsbD_xor, crcBit_xor]

/-- A bit of the data byte equal to the accumulator's own leaves the polynomial out. -/
theorem crcBit_own_bit (a : Byte) (i : Nat) : crcBit (a >>> i) (a.getLsbD i) = a >>> (i + 1) := by
  rw [crcBit, BitVec.getLsbD_ushiftRight, Nat.add_zero, Bool.xor_self, if_neg Bool.false_ne_true,
    BitVec.shiftRight_add]

/-- When the data byte is the accumulator all eight bits are shifted out and nothing is mixed in (R126 (b)). -/
theorem crcByte_self (a : Byte) : crcByte a a = 0 := by
  have hfirst : crcBit a (a.getLsbD 0) = a >>> 1 := crcBit_own_bit a 0
  have hlast : a >>> 8 = 0 := BitVec.ushiftRight_eq_zero (Nat.le_refl 8)
  rw [crcByte_eq, hfirst, crcBit_own_bit, crcBit_own_bit, crcBit_own_bit, crcBit_own_bit, crcBit_own_bit,
    crcBit_own_bit, crcBit_own_bit, hlast]

/-- The table form: the two operands matter through their exclusive-or only (R125). -/
theorem crcByte_eq_crcByte_zero (acc d : Byte) : crcByte acc d = crcByte 0 (acc ^^^ d) :=
  calc crcByte acc d = crcByte (0 ^^^ acc) ((acc ^^^ d) ^^^ acc) := by
        rw [BitVec.xor_comm (acc ^^^ d), ← BitVec.xor_assoc, BitVec.xor_self]
        exact congrArg₂ crcByte (BitVec.zero_xor).symm (BitVec.zero_xor).symm
    _ = crcByte 0 (acc ^^^ d) ^^^ crcByte acc acc := crcByte_xor _ _ _ _
    _ = crcByte 0 (acc ^^^ d) := by rw [crcByte_self]; exact BitVec.xor_zero

/-- The polynomial's top bit marks that it was mixed in, so no other accumulator is shifted to zero. -/
theorem eq_zero_of_crcBit_false {a : Byte} (h : crcBit a false = 0) : a = 0 := by
  revert a; decide

/-- Only the zero byte leaves a zero accumulator at zero. -/
theorem eq_zero_of_crcByte_zero {d : Byte} (h : crcByte 0 d = 0) : d = 0 := by
  have hd : d ^^^ 0 = d := BitVec.xor_zero
  have hswap : crcByte d 0 = 0 := by rw [crcByte_eq_crcByte_zero, hd, h]
  have hbit : ∀ i, (0 : Byte).getLsbD i = false := fun _ => BitVec.getLsbD_zero
  rw [crcByte_eq, hbit, hbit, hbit, hbit, hbit, hbit, hbit, hbit] at hswap
  iterate 8 replace hswap := eq_zero_of_crcBit_false hswap
  exact hswap

/-- With the same accumulator different bytes give different checksums (R126 (a)). -/
theorem crcByte_right_injective (acc : Byte) : Function.Injective (crcByte acc) := by
  intro d d' h
  have hzero : crcByte 0 (d ^^^ d') = 0 :=
    calc crcByte 0 (d ^^^ d') = crcByte (acc ^^^ acc) (d ^^^ d') := congrArg (crcByte · _) BitVec.xor_self.symm
      _ = crcByte acc d ^^^ crcByte acc d' := crcByte_xor _ _ _ _
      _ = 0 := by rw [h]; exact BitVec.xor_self
  exact BitVec.xor_eq_zero_iff.mp (eq_zero_of_crcByte_zero hzero)

/-! ## The shifted form -/

/-- One turn of the source's loop is the bit step on bit 0 of the data byte, which is then shifted (R122). -/
theorem crcByteShift_succ (n : Nat) (acc d : Byte) :
    crcByteShift (n + 1) acc d = crcByteShift n (crcBit acc (d.getLsbD 0)) (d >>> 1) := by
  rw [crcByteShift, crcBit_eq, BitVec.getLsbD_xor]

/-- After `i` turns bit 0 of the shifted data byte is its bit `i`, so the loop is the fold over the indices. -/
theorem crcByteShift_eq_foldl (n i : Nat) (acc d : Byte) :
    crcByteShift n acc (d >>> i) = (List.range' i n).foldl (fun a j => crcBit a (d.getLsbD j)) acc := by
  induction n generalizing i acc with
  | zero => rfl
  | succ n ih =>
    rw [crcByteShift_succ, BitVec.getLsbD_ushiftRight, ← BitVec.shiftRight_add, ih, List.range'_succ, List.foldl_cons,
      Nat.add_zero]

/-! ## The operations of the unit on a sequence -/

theorem exec_crcInit (s : State) : exec .crcInit s = .next { s with unitOut := .byte Config.crcInit } := rfl

/-- CRC.SEQ answers the checksum of the sequences its rule speaks of (R123). -/
theorem exec_crcSeq_of_le {p : List Byte} (s : State) (h : p.length ≤ Config.maxLen) :
    exec (.crcSeq p) s = .next { s with unitOut := .byte (crcSeq p) } :=
  if_pos h

/-! ## The statements -/

/-- Settles O15: both operations answer their function's value, and CRC.SEQ is the fold by definition. -/
theorem crcSeqAnswer : Obligations.CrcSeqAnswer := by
  intro s
  refine ⟨exec_crcInit s, fun p hp => ?_⟩
  rw [exec_crcSeq_of_le s hp, crcSeq, Config.crcInit]

/-- Settles O16: the shifted loop from bit 0 on is the fold over the eight indices. -/
theorem crcShiftFormEqual : Obligations.CrcShiftFormEqual := by
  intro acc d
  calc crcByteShift 8 acc d = crcByteShift 8 acc (d >>> 0) := by rw [BitVec.ushiftRight_zero]
    _ = crcByte acc d := crcByteShift_eq_foldl 8 0 acc d

/-- Settles O17: the table form and linearity. -/
theorem crcTableAndLinear : Obligations.CrcTableAndLinear :=
  ⟨crcByte_eq_crcByte_zero, crcByte_xor⟩

/-- Settles O18: the last byte is mixed into the accumulator of the sequence before it. -/
theorem crcLastByte : Obligations.CrcLastByte := by
  constructor
  · intro p d d' h
    rw [crcSeq_append, crcSeq_append] at h
    exact crcByte_right_injective _ h
  · intro p
    rw [crcSeq_append, crcByte_self]

end Sys2Proof.Machine
end

section
/-!
The decoder and the encoder (30_encoding.md sections 1 to 4): a code, a pair, a payload and a frame decode to what they
encode and to nothing else. The statements O21 and O23 to O25.
-/

namespace Sys2Proof.Machine

/-! ## One code, one pair -/

/-- Only the nibble's own code decodes to it. -/
theorem decNib_eq_some {w : Byte} {n : Nibble} : decNib w = some n ↔ w = encNib n := by
  constructor
  · intro h
    rw [decNib_eq_ite] at h
    split at h
    case isTrue hv =>
      obtain rfl := Option.some.inj h
      have hbits : w = hi4 w ++ lo4 w := by rw [← joinNibbles_eq_append, joinNibbles_hi4_lo4]
      have hlo : lo4 w = hi4 w ^^^ 0xF#4 := by rw [hv, BitVec.xor_assoc, BitVec.xor_self, BitVec.xor_zero]
      rw [encNib_eq_append, ← hlo, ← hbits]
    case isFalse => cases h
  · rintro rfl
    exact decNib_encNib n

@[simp] theorem hi4_joinNibbles (n1 n2 : Nibble) : hi4 (joinNibbles n1 n2) = n1 := by
  revert n1 n2; decide

@[simp] theorem lo4_joinNibbles (n1 n2 : Nibble) : lo4 (joinNibbles n1 n2) = n2 := by
  revert n1 n2; decide

/-- A pair decodes to the byte it is the pair of, and to no other (41_codec.md R145). -/
theorem decPair_eq_some {w1 w2 b : Byte} : decPair w1 w2 = some b ↔ (w1, w2) = encByte b := by
  constructor
  · intro h
    unfold decPair at h
    split at h
    · cases h
    next n1 h1 =>
      split at h
      · cases h
      next n2 h2 =>
        obtain rfl := Option.some.inj h
        rw [encByte, hi4_joinNibbles, lo4_joinNibbles, decNib_eq_some.mp h1, decNib_eq_some.mp h2]
  · intro h
    obtain ⟨rfl, rfl⟩ := Prod.mk.inj h
    exact decPair_encByte b

theorem pairBytes_of_decPair {w1 w2 b : Byte} (h : decPair w1 w2 = some b) : pairBytes b = [w1, w2] := by
  rw [pairBytes, ← decPair_eq_some.mp h]

theorem encNib_ne_etx (n : Nibble) : encNib n ≠ Config.etx := by
  revert n; decide

theorem encNib_ne_stx (n : Nibble) : encNib n ≠ Config.stx := by
  revert n; decide

/-! ## One wire byte -/

/-- A nibble is one of the sixteen of 30_encoding.md R93. -/
theorem nibble_cases (n : Nibble) : n = 0x0 ∨ n = 0x1 ∨ n = 0x2 ∨ n = 0x3 ∨ n = 0x4 ∨ n = 0x5 ∨ n = 0x6 ∨ n = 0x7 ∨
    n = 0x8 ∨ n = 0x9 ∨ n = 0xA ∨ n = 0xB ∨ n = 0xC ∨ n = 0xD ∨ n = 0xE ∨ n = 0xF := by
  revert n; decide

theorem encode_nibInstr (n : Nibble) : encode (nibInstr n) = some (.wire (encNib n)) := by
  obtain rfl | rfl | rfl | rfl | rfl | rfl | rfl | rfl | rfl | rfl | rfl | rfl | rfl | rfl | rfl | rfl := nibble_cases n
    <;> rfl

theorem nibInstr_wf (n : Nibble) : (nibInstr n).wf = true := by
  revert n; decide

theorem decode_encNib (n : Nibble) : decode (.wire (encNib n)) = .ok (nibInstr n) := by
  rw [decode, decodeWire, classify_encNib]

theorem decode_bad {w : Byte} (h : classify w = .bad) : decode (.wire w) = .ok (.bad w) := by
  rw [decode, decodeWire, h]

/-- Every wire byte is the pattern of the row it decodes to (30_encoding.md R91). -/
theorem encode_decodeWire (w : Byte) : encode (decodeWire w) = some (.wire w) := by
  cases hc : classify w with
  | stx => rw [decodeWire, hc, classify_eq_stx.mp hc]; rfl
  | etx => rw [decodeWire, hc, classify_eq_etx.mp hc]; rfl
  | nib n => rw [decodeWire, hc, classify_eq_nib.mp hc]; exact encode_nibInstr n
  | bad => rw [decodeWire, hc]; rfl

theorem decodeWire_wf (w : Byte) : (decodeWire w).wf = true := by
  cases hc : classify w with
  | stx => rw [decodeWire, hc]; rfl
  | etx => rw [decodeWire, hc]; rfl
  | nib n => rw [decodeWire, hc]; exact nibInstr_wf n
  | bad => rw [decodeWire, hc]; exact decide_eq_true hc

/-! ## The payload of a frame -/

/-- The pairs before an end marker that something follows are read back (R97). -/
theorem decodePayload_payloadBytes (p : List Byte) (t : Byte) (tail : List Byte) :
    decodePayload (payloadBytes p ++ Config.etx :: t :: tail) = .ok (p, t :: tail) := by
  induction p with
  | nil => rw [payloadBytes_nil, List.nil_append, decodePayload, if_pos rfl]
  | cons b p ih =>
    have hne : (encByte b).1 ≠ Config.etx := encNib_ne_etx _
    rw [payloadBytes_cons, List.cons_append, List.cons_append, decodePayload, if_neg hne, decPair_encByte, ih]

/-- What is read as a payload is its pairs and an end marker (R97). -/
theorem eq_of_decodePayload {ws p tail : List Byte} (h : decodePayload ws = .ok (p, tail)) :
    ws = payloadBytes p ++ Config.etx :: tail := by
  induction ws using decodePayload.induct generalizing p tail with
  | case1 => cases h
  | case2 =>
    rw [decodePayload, if_pos rfl] at h
    cases h
    rfl
  | case3 w hw =>
    rw [decodePayload, if_neg hw] at h
    cases h
  | case4 w2 rest =>
    rw [decodePayload, if_pos rfl] at h
    cases h
    rfl
  | case5 w1 w2 rest hw hp =>
    rw [decodePayload, if_neg hw, hp] at h
    cases h
  | case6 w1 w2 rest hw b hp e he _ =>
    rw [decodePayload, if_neg hw, hp, he] at h
    cases h
  | case7 w1 w2 rest hw b hp q tl hq ih =>
    rw [decodePayload, if_neg hw, hp, hq] at h
    cases h
    have hpair := decPair_eq_some.mp hp
    rw [payloadBytes_cons, ← hpair, ih hq]
    rfl

/-! ## A frame -/

/-- The tail of a frame is the pair of the payload's checksum. -/
theorem decodeTail_checksum {p : List Byte} (h : p.length ≤ Config.maxLen) :
    decodeTail p (pairBytes (crcSeq p)) = .ok (.frame p) := by
  rw [pairBytes, decodeTail, decPair_encByte]
  simp only [ne_eq, not_true_eq_false, if_false, Nat.not_lt.mpr h]

theorem of_decodeTail {p tail : List Byte} {i : Instr} (h : decodeTail p tail = .ok i) :
    tail = pairBytes (crcSeq p) ∧ p.length ≤ Config.maxLen ∧ i = .frame p := by
  unfold decodeTail at h
  split at h
  next c1 c2 =>
    split at h
    · cases h
    next c hc =>
      split at h
      · cases h
      next hsum =>
        split at h
        · cases h
        next hlen =>
          rw [← not_not.mp hsum]
          exact ⟨(pairBytes_of_decPair hc).symm, Nat.not_lt.mp hlen, (Except.ok.inj h).symm⟩
  · cases h

theorem decodeFrame_frameBytes {p : List Byte} (h : p.length ≤ Config.maxLen) :
    decodeFrame (frameBytes p) = .ok (.frame p) := by
  rw [frameBytes_eq, frameWith_eq, decodeFrame, if_pos rfl, decodePayload_payloadBytes]
  exact decodeTail_checksum h

/-- What decodes as a frame is the frame of a payload of at most 255 bytes (R97). -/
theorem of_decodeFrame {ws : List Byte} {i : Instr} (h : decodeFrame ws = .ok i) :
    ∃ p, ws = frameBytes p ∧ p.length ≤ Config.maxLen ∧ i = .frame p := by
  unfold decodeFrame at h
  split at h
  · cases h
  next w rest =>
    split at h
    next hw =>
      split at h
      · cases h
      next p tail hp =>
        obtain ⟨rfl, hlen, rfl⟩ := of_decodeTail h
        refine ⟨p, ?_, hlen, rfl⟩
        rw [hw, eq_of_decodePayload hp, frameBytes_eq, frameWith_eq, pairBytes, encByte]
    · cases h

/-! ## A command -/

theorem op_cases (op : BitVec 1) : op = 0 ∨ op = 1 := by
  revert op; decide

/-- A command's bits come back but for the timeout of a SEND (30_encoding.md R101). -/
theorem encode_decodeCommand (op : BitVec 1) (len : Byte) (timeout : Time) :
    encode (decodeCommand op len timeout) = some (.command op len (if op = 0 then 0 else timeout)) := by
  obtain rfl | rfl := op_cases op
  · rfl
  · rfl

theorem decodeCommand_wf (op : BitVec 1) (len : Byte) (timeout : Time) : (decodeCommand op len timeout).wf = true := by
  obtain rfl | rfl := op_cases op
  · rfl
  · rfl

/-! ## The decoder on each kind of bit pattern -/

theorem decode_pair_ok {w1 w2 : Byte} {i : Instr} (h : decode (.pair w1 w2) = .ok i) :
    ∃ b, decPair w1 w2 = some b ∧ i = .pair b := by
  rw [decode] at h
  cases hb : decPair w1 w2 with
  | none =>
    rw [hb] at h
    cases h
  | some b =>
    rw [hb] at h
    exact ⟨b, rfl, (Except.ok.inj h).symm⟩

theorem wf_of_decode {w : PortWord} {i : Instr} (h : decode w = .ok i) : i.wf = true := by
  cases w with
  | wire w =>
    obtain rfl := Except.ok.inj h
    exact decodeWire_wf w
  | pair w1 w2 =>
    obtain ⟨b, -, rfl⟩ := decode_pair_ok h
    rfl
  | frame ws =>
    obtain ⟨p, -, hlen, rfl⟩ := of_decodeFrame h
    exact decide_eq_true hlen
  | command op len timeout =>
    obtain rfl := Except.ok.inj h
    exact decodeCommand_wf op len timeout

/-! ## The statements -/

/-- Settles O21: a pair decodes to the byte it is the pair of, and to no other. -/
theorem pairRoundTrip : Obligations.PairRoundTrip :=
  ⟨decPair_encByte, fun _ _ _ h => decPair_eq_some.mp h⟩

/-- Settles O23: each word by evaluation, the frame as the layout of its payload. -/
theorem decodedSampleWords : Obligations.DecodedSampleWords := by
  have hfirst : crcByte Config.crcInit 0x41 = 0x18 := by decide
  have hsecond : crcByte 0x18 0x42 = 0xA5 := by decide
  have hsum : crcSeq [0x41, 0x42] = 0xA5 := by
    rw [crcSeq, List.foldl_cons, List.foldl_cons, List.foldl_nil, hfirst, hsecond]
  have hframe : frameBytes [0x41, 0x42] = [0x02, 0x4B, 0x1E, 0x4B, 0x2D, 0x03, 0xA5, 0x5A] := by
    rw [frameBytes, hsum]
    decide
  refine ⟨rfl, rfl, rfl, rfl, rfl, rfl, ?_, rfl, rfl⟩
  rw [decode, ← hframe, decodeFrame_frameBytes (by decide)]

/-- Settles O24, by the kind of the bit pattern: wire bytes by their class, a pair by its round trip, a frame by reading
its payload and its tail back, a command by its operation. -/
theorem decodeInvertsEncode : Obligations.DecodeInvertsEncode := by
  intro i w hwf h
  cases i with
  | stx => cases h; rfl
  | etx => cases h; rfl
  | nib0 => cases h; exact decode_encNib 0x0
  | nib1 => cases h; exact decode_encNib 0x1
  | nib2 => cases h; exact decode_encNib 0x2
  | nib3 => cases h; exact decode_encNib 0x3
  | nib4 => cases h; exact decode_encNib 0x4
  | nib5 => cases h; exact decode_encNib 0x5
  | nib6 => cases h; exact decode_encNib 0x6
  | nib7 => cases h; exact decode_encNib 0x7
  | nib8 => cases h; exact decode_encNib 0x8
  | nib9 => cases h; exact decode_encNib 0x9
  | nibA => cases h; exact decode_encNib 0xA
  | nibB => cases h; exact decode_encNib 0xB
  | nibC => cases h; exact decode_encNib 0xC
  | nibD => cases h; exact decode_encNib 0xD
  | nibE => cases h; exact decode_encNib 0xE
  | nibF => cases h; exact decode_encNib 0xF
  | bad w => cases h; exact decode_bad (of_decide_eq_true hwf)
  | pair b => cases h; rw [decode, decPair_encByte]
  | frame p => cases h; exact decodeFrame_frameBytes (of_decide_eq_true hwf)
  | send len => cases h; rfl
  | recv max timeout => cases h; rfl
  | _ => cases h

/-- Settles O25: the same kinds of bit pattern in the other direction. -/
theorem encodeInvertsDecode : Obligations.EncodeInvertsDecode := by
  refine ⟨fun w i h => wf_of_decode h, fun w i h => ?wire, fun w1 w2 i h => ?pair, fun ws i h => ?frame,
    fun op len timeout i h => ?command⟩
  case wire =>
    obtain rfl := Except.ok.inj h
    exact encode_decodeWire w
  case pair =>
    obtain ⟨b, hb, rfl⟩ := decode_pair_ok h
    rw [encode, ← decPair_eq_some.mp hb]
  case frame =>
    obtain ⟨p, rfl, -, rfl⟩ := of_decodeFrame h
    rfl
  case command =>
    obtain rfl := Except.ok.inj h
    exact encode_decodeCommand op len timeout

end Sys2Proof.Machine
end

section
/-!
One step, said once for each mode: the sender's six steps as one write with what it reads before and does after, the
receiver's step as what it may write and how it may end, and the idle block's acts of the host.
-/

namespace Sys2Proof.Machine

open Claims

/-! ## The sender's step as one write -/

/-- The byte that the step of the current phase offers (42_frame_sender.md R162 to R167). -/
def phaseByte (s : State) : Byte :=
  match s.tx.phase with
  | .stx => Config.stx
  | .hi => encNib (hi4 (s.pay.read s.tx.idx.toNat))
  | .lo => encNib (lo4 s.tx.cur)
  | .etx => Config.etx
  | .chi => encNib (hi4 s.tx.acc)
  | .clo => encNib (lo4 s.tx.acc)

/-- What the step does before its write: TX.HI reads PAY (R162). -/
def phaseRead (s : State) : State :=
  match s.tx.phase with
  | .stx => s
  | .hi => loadPay s
  | .lo => s
  | .etx => s
  | .chi => s
  | .clo => s

/-- What the step does after an accepted write. -/
def phaseAdvance : TxPhase → State → State
  | .stx => afterStx
  | .hi => setTxPhase .lo
  | .lo => afterLo
  | .etx => setTxPhase .chi
  | .chi => setTxPhase .clo
  | .clo => complete 0

theorem senderStep_eq_offer (s : State) :
    senderStep s.tx.phase s = offer (phaseByte s) (phaseAdvance s.tx.phase) (phaseRead s) := by
  cases hp : s.tx.phase <;> simp only [senderStep, phaseByte, phaseRead, phaseAdvance, hp]

/-- The registers of the sender apart from `tx.len` are all that the read can write. -/
theorem phaseRead_eq (s : State) : ∃ tx, phaseRead s = { s with tx := tx } ∧ tx.len = s.tx.len := by
  cases hp : s.tx.phase with
  | hi => exact ⟨(loadPay s).tx, by rw [phaseRead, hp, loadPay], rfl⟩
  | _ => exact ⟨s.tx, by rw [phaseRead, hp], rfl⟩

/-- They are all that an advance can write, but for the last one, which ends the command. -/
theorem phaseAdvance_eq {p : TxPhase} (h : p ≠ .clo) (s : State) :
    ∃ tx, phaseAdvance p s = { s with tx := tx } ∧ tx.len = s.tx.len := by
  cases p with
  | stx => exact ⟨_, afterStx_eq s, rfl⟩
  | hi => exact ⟨_, rfl, rfl⟩
  | lo =>
    by_cases hlt : s.tx.idx.toNat + 1 < s.tx.len.toNat
    · exact ⟨_, afterLo_of_lt hlt, rfl⟩
    · exact ⟨_, afterLo_of_not_lt hlt, rfl⟩
  | etx => exact ⟨_, rfl, rfl⟩
  | chi => exact ⟨_, rfl, rfl⟩
  | clo => exact absurd rfl h

@[simp] theorem phaseRead_env (s : State) : (phaseRead s).env = s.env := by
  obtain ⟨tx, h, -⟩ := phaseRead_eq s
  rw [h]

@[simp] theorem phaseAdvance_env (p : TxPhase) (s : State) : (phaseAdvance p s).env = s.env := by
  by_cases hp : p = .clo
  · subst hp; rfl
  · obtain ⟨tx, h, -⟩ := phaseAdvance_eq hp s
    rw [h]

theorem exec_txStep_of_send {s : State} (h : s.mode = .send) :
    exec .txStep s = offer (phaseByte s) (phaseAdvance s.tx.phase) (phaseRead s) :=
  (if_pos h).trans (senderStep_eq_offer s)

/-- A step of the sending block is one write (R161). -/
theorem step_send_eq_offer {s : State} (h : s.mode = .send) :
    step s = offer (phaseByte s) (phaseAdvance s.tx.phase) (phaseRead s) :=
  (step_send h).trans (senderStep_eq_offer s)

/-- A sender step whose write is answered 1. -/
theorem step_send_one {s : State} {rest : List Nat} (h : s.mode = .send) (hr : s.env.txAnswers = 1 :: rest) :
    step s = .next (phaseAdvance s.tx.phase (logOffer (phaseByte s) 1 rest (phaseRead s))) := by
  rw [step_send_eq_offer h, offer_one (by rw [phaseRead_env, hr])]

/-- A sender step whose write is answered otherwise. -/
theorem step_send_other {s : State} {r : Nat} {rest : List Nat} (h : s.mode = .send) (hr : s.env.txAnswers = r :: rest)
    (h1 : r ≠ 1) : step s = .next (raise .transport (logOffer (phaseByte s) r rest (phaseRead s))) := by
  rw [step_send_eq_offer h, offer_other (by rw [phaseRead_env, hr]) h1]

/-- The only ways a sender step goes on. -/
theorem step_send_cases {s t : State} (h : s.mode = .send) (hstep : step s = .next t) :
    ∃ r rest, s.env.txAnswers = r :: rest ∧
      (r = 1 ∧ t = phaseAdvance s.tx.phase (logOffer (phaseByte s) r rest (phaseRead s)) ∨
        r ≠ 1 ∧ t = raise .transport (logOffer (phaseByte s) r rest (phaseRead s))) := by
  rw [step_send_eq_offer h] at hstep
  obtain ⟨r, rest, hr, hcases⟩ := offer_cases hstep
  exact ⟨r, rest, (by rw [← hr, phaseRead_env]), hcases⟩

/-- What a sender step leaves alone while the command runs on (20_memory.md R60). -/
structure SenderWrites (s u : State) : Prop where
  mode : u.mode = s.mode
  resOk : u.resOk = s.resOk
  resLen : u.resLen = s.resLen
  resCause : u.resCause = s.resCause
  len : u.tx.len = s.tx.len
  rx : u.rx = s.rx
  pay : u.pay = s.pay
  out : u.out = s.out
  unitOut : u.unitOut = s.unitOut
  freeDraws : u.freeDraws = s.freeDraws
  env : ∃ o rest, u.env = { s.env with txs := s.env.txs ++ [o], txAnswers := rest }

/-- Every sender step is an offer within `SenderWrites`, then possibly one of the two exits (R161, R168, R169). -/
theorem step_send_ends {s t : State} (h : s.mode = .send) (hstep : step s = .next t) :
    ∃ u, SenderWrites s u ∧ (t = u ∨ s.tx.phase = .clo ∧ t = complete 0 u ∨ t = raise .transport u) := by
  obtain ⟨r, rest, -, hcases⟩ := step_send_cases h hstep
  obtain ⟨tx, hread, hlen⟩ := phaseRead_eq s
  have hlog : SenderWrites s (logOffer (phaseByte s) r rest (phaseRead s)) := by
    rw [hread]
    exact ⟨rfl, rfl, rfl, rfl, hlen, rfl, rfl, rfl, rfl, rfl, _, _, rfl⟩
  obtain ⟨-, rfl⟩ | ⟨-, rfl⟩ := hcases
  · by_cases hp : s.tx.phase = .clo
    · rw [hp]
      exact ⟨_, hlog, .inr (.inl ⟨rfl, rfl⟩)⟩
    · obtain ⟨tx', hadv, hlen'⟩ := phaseAdvance_eq hp (logOffer (phaseByte s) r rest (phaseRead s))
      rw [hadv]
      exact ⟨{ logOffer (phaseByte s) r rest (phaseRead s) with tx := tx' },
        { hlog with len := hlen'.trans hlog.len }, .inl rfl⟩
  · exact ⟨_, hlog, .inr (.inr rfl)⟩

/-! ## The receiver's step -/

/-- A receiver step that finds a byte (43_frame_receiver.md R201). -/
theorem step_recv_byte {s : State} {d c : Nat} {ts cs : List Nat} {w : Byte} {ws : List Byte} (h : s.mode = .recv)
    (ht : s.env.ticks = d :: ts) (hc : s.env.rxAvail = c :: cs) (h0 : 0 < c) (hw : s.env.rxBytes = w :: ws) :
    step s = .next (receiveByte w (polledByte d ts cs ws s).now (polledByte d ts cs ws s)) := by
  rw [step_recv h, poll_byte ht hc h0 hw]
  rfl

/-- A receiver step that finds none (R201). -/
theorem step_recv_silent {s : State} {d : Nat} {ts cs : List Nat} (h : s.mode = .recv) (ht : s.env.ticks = d :: ts)
    (hc : s.env.rxAvail = 0 :: cs) :
    step s = .next (receiveNothing (polledNothing d ts cs s).now (polledNothing d ts cs s)) := by
  rw [step_recv h, poll_silent ht hc]
  rfl

/-- The only ways a receiver step goes on. -/
theorem step_recv_cases {s t : State} (h : s.mode = .recv) (hstep : step s = .next t) :
    (∃ d ts cs w ws, t = receiveByte w (polledByte d ts cs ws s).now (polledByte d ts cs ws s)) ∨
    ∃ d ts cs, t = receiveNothing (polledNothing d ts cs s).now (polledNothing d ts cs s) := by
  rw [step_recv h] at hstep
  split at hstep
  next w s' hp =>
    obtain ⟨d, ts, c, cs, ws, -, -, -, -, rfl⟩ := poll_byte_cases hp
    exact .inl ⟨d, ts, cs, w, ws, (Host.Outcome.next.inj hstep).symm⟩
  next s' hp =>
    obtain ⟨d, ts, cs, -, -, rfl⟩ := poll_silent_cases hp
    exact .inr ⟨d, ts, cs, (Host.Outcome.next.inj hstep).symm⟩
  · cases hstep

/-- What a receiver step leaves alone while the command runs on, and where it may write OUT (20_memory.md R60, R62). -/
structure ReceiverWrites (s u : State) : Prop where
  mode : u.mode = s.mode
  resOk : u.resOk = s.resOk
  resLen : u.resLen = s.resLen
  resCause : u.resCause = s.resCause
  tx : u.tx = s.tx
  maxlen : u.rx.maxlen = s.rx.maxlen
  timeout : u.rx.timeout = s.rx.timeout
  pay : u.pay = s.pay
  out : u.out = s.out ∨ ∃ v, s.rx.pos < s.rx.maxlen ∧ u.out = s.out.write s.rx.pos.toNat v
  unitOut : u.unitOut = s.unitOut
  freeDraws : u.freeDraws = s.freeDraws
  txs : u.env.txs = s.env.txs
  txAnswers : u.env.txAnswers = s.env.txAnswers
  host : u.env.host = s.env.host

/-- The failures a receiver step can end with (60_exceptions.md R250). -/
def recvFailures : List Cause := [.timeout, .corrupt, .overflow, .checksum]

/-- How a receiver step can end from what it has written: the command runs on, or one of its exits is taken. -/
def ReceiverEnds (s u t : State) : Prop :=
  t = u ∨ (s.rx.haveEtx = true ∧ t = complete s.rx.pos u) ∨ ∃ c ∈ recvFailures, t = raise c u

theorem ReceiverWrites.refl (s : State) : ReceiverWrites s s :=
  ⟨rfl, rfl, rfl, rfl, rfl, rfl, rfl, rfl, .inl rfl, rfl, rfl, rfl, rfl, rfl⟩

/-- The four endings of the comparison and the two others of RX.NIBLO (R208 to R212). -/
theorem lowNibble_ends (n : Nibble) (s : State) :
    ∃ u, ReceiverWrites s u ∧ ReceiverEnds s u (lowNibble n s) := by
  have hjoin : ReceiverWrites s (joinNibble n s) :=
    ⟨rfl, rfl, rfl, rfl, rfl, rfl, rfl, rfl, .inl rfl, rfl, rfl, rfl, rfl, rfl⟩
  obtain ⟨he, h⟩ | ⟨-, hlt, h⟩ | ⟨-, -, h⟩ := lowNibble_cases n s <;> rw [h]
  · rw [checkSum]
    split
    · exact ⟨_, hjoin, .inr (.inl ⟨he, rfl⟩)⟩
    · exact ⟨_, hjoin, .inr (.inr ⟨.checksum, by decide, rfl⟩)⟩
  · exact ⟨appendByte (joinNibble n s), { hjoin with out := .inr ⟨_, hlt, rfl⟩ }, .inl rfl⟩
  · exact ⟨_, hjoin, .inr (.inr ⟨.overflow, by decide, rfl⟩)⟩

theorem receiveByte_ends (w : Byte) (now : Time) (s : State) :
    ∃ u, ReceiverWrites s u ∧ ReceiverEnds s u (receiveByte w now s) := by
  obtain ⟨-, h⟩ | ⟨-, -, h⟩ | ⟨-, -, h⟩ | ⟨-, -, h⟩ | ⟨n, -, -, -, h⟩ | ⟨n, -, -, -, h⟩ := receiveByte_cases w now s <;>
    rw [h]
  · exact ⟨startFrame now s, { ReceiverWrites.refl s with }, .inl rfl⟩
  · exact ⟨_, .refl s, .inl rfl⟩
  · exact ⟨endPayload s, { ReceiverWrites.refl s with }, .inl rfl⟩
  · exact ⟨_, .refl s, .inr (.inr ⟨.corrupt, by decide, rfl⟩)⟩
  · exact ⟨holdNibble n s, { ReceiverWrites.refl s with }, .inl rfl⟩
  · exact lowNibble_ends n s

theorem receiveNothing_ends (now : Time) (s : State) :
    ∃ u, ReceiverWrites s u ∧ ReceiverEnds s u (receiveNothing now s) := by
  rw [receiveNothing]
  split
  · exact ⟨_, .refl s, .inr (.inr ⟨.timeout, by decide, rfl⟩)⟩
  · exact ⟨_, .refl s, .inl rfl⟩

/-- Every receiver step acts within `ReceiverWrites`, then possibly takes one of its exits (R222). -/
theorem step_recv_ends {s t : State} (h : s.mode = .recv) (hstep : step s = .next t) :
    ∃ u, ReceiverWrites s u ∧ ReceiverEnds s u t := by
  obtain ⟨d, ts, cs, w, ws, rfl⟩ | ⟨d, ts, cs, rfl⟩ := step_recv_cases h hstep
  · obtain ⟨u, hu, hends⟩ := receiveByte_ends w (polledByte d ts cs ws s).now (polledByte d ts cs ws s)
    exact ⟨u, { hu with }, hends⟩
  · obtain ⟨u, hu, hends⟩ := receiveNothing_ends (polledNothing d ts cs s).now (polledNothing d ts cs s)
    exact ⟨u, { hu with }, hends⟩

/-! ## The idle block's step -/

/-- The host's act `a` has been taken from its queue. -/
def taken (rest : List HostAct) (s : State) : State := { s with env := { s.env with host := rest } }

section Idle

variable {s : State} {rest : List HostAct} (hm : s.mode = .idle)
include hm

theorem step_idle_nothing (h : s.env.host = []) : step s = .next s := by
  rw [step_idle hm, fetchIdle, h]

theorem step_idle_writePay {a v : Byte} (h : s.env.host = .writePay a v :: rest) :
    step s = .next { taken rest s with pay := s.pay.write a.toNat v } := by
  rw [step_idle hm, fetchIdle, h]
  rfl

theorem step_idle_writeOut {a v : Byte} (h : s.env.host = .writeOut a v :: rest) :
    step s = .next { taken rest s with out := s.out.write a.toNat v } := by
  rw [step_idle hm, fetchIdle, h]
  rfl

theorem step_idle_reset (h : s.env.host = .reset :: rest) : step s = .next (powerOnReset (taken rest s)) := by
  rw [step_idle hm, fetchIdle, h]
  rfl

/-- A command at the port runs with the command taken (10_state.md R36). -/
theorem step_idle_command {op : BitVec 1} {len : Byte} {timeout : Time}
    (h : s.env.host = .command op len timeout :: rest) :
    step s = exec (decodeCommand op len timeout) (taken rest s) := by
  rw [step_idle hm, fetchIdle, h]
  rfl

theorem step_idle_send {len : Byte} {timeout : Time} (h : s.env.host = .command 0 len timeout :: rest) :
    step s = .next (sendStart len (taken rest s)) := by
  rw [step_idle_command hm h, decodeCommand_zero]
  exact exec_send_of_idle len hm

theorem step_idle_recv {max : Byte} {timeout : Time} {d : Nat} {ts : List Nat}
    (h : s.env.host = .command 1 max timeout :: rest) (ht : s.env.ticks = d :: ts) :
    step s = .next (recvStart max timeout { s with env := { s.env with
      clock := s.env.clock + d, ticks := ts, host := rest } }) := by
  rw [step_idle_command hm h, decodeCommand_one]
  exact exec_recv_of_idle (s := taken rest s) max timeout hm ht

theorem step_idle_recv_stuck {max : Byte} {timeout : Time} (h : s.env.host = .command 1 max timeout :: rest)
    (ht : s.env.ticks = []) : step s = .fault .clockNoAnswer := by
  have hsample : sampleClock (taken rest s) = none := by simp only [sampleClock, taken, ht]
  have hexec : exec (.recv max timeout) (taken rest s) = execRecv max timeout (taken rest s) := rfl
  have hready : (taken rest s).cmdReady = true := cmdReady_iff.mpr hm
  rw [step_idle_command hm h, decodeCommand_one, hexec, execRecv, if_pos hready, hsample]

/-- The only ways a step of the idle block goes on (60_exceptions.md R268). -/
theorem step_idle_cases {t : State} (hstep : step s = .next t) :
    t = s ∨
    (∃ (a v : Byte) (rest : List HostAct), t = { taken rest s with pay := s.pay.write a.toNat v }) ∨
    (∃ (a v : Byte) (rest : List HostAct), t = { taken rest s with out := s.out.write a.toNat v }) ∨
    (∃ rest, s.env.host = .reset :: rest ∧ t = powerOnReset (taken rest s)) ∨
    (∃ len rest, t = sendStart len (taken rest s)) ∨
    (∃ max timeout e, t = recvStart max timeout { s with env := e }) := by
  cases hh : s.env.host with
  | nil =>
    rw [step_idle_nothing hm hh] at hstep
    exact .inl (Host.Outcome.next.inj hstep).symm
  | cons act rest =>
    cases act with
    | writePay a v =>
      rw [step_idle_writePay hm hh] at hstep
      exact .inr (.inl ⟨a, v, rest, (Host.Outcome.next.inj hstep).symm⟩)
    | writeOut a v =>
      rw [step_idle_writeOut hm hh] at hstep
      exact .inr (.inr (.inl ⟨a, v, rest, (Host.Outcome.next.inj hstep).symm⟩))
    | reset =>
      rw [step_idle_reset hm hh] at hstep
      exact .inr (.inr (.inr (.inl ⟨rest, rfl, (Host.Outcome.next.inj hstep).symm⟩)))
    | command op len timeout =>
      obtain rfl | rfl := op_cases op
      · rw [step_idle_send hm hh] at hstep
        exact .inr (.inr (.inr (.inr (.inl ⟨len, rest, (Host.Outcome.next.inj hstep).symm⟩))))
      · cases ht : s.env.ticks with
        | nil =>
          rw [step_idle_recv_stuck hm hh ht] at hstep
          cases hstep
        | cons d ts =>
          rw [step_idle_recv hm hh ht] at hstep
          exact .inr (.inr (.inr (.inr (.inr ⟨len, timeout, _, (Host.Outcome.next.inj hstep).symm⟩))))

end Idle

end Sys2Proof.Machine
end

section
/-!
The invariant of 10_state.md R44: the sender offers the frame of its payload byte by byte, the receiver's registers
describe the bytes it has put into OUT. The statements O5 and O6.
-/

namespace Sys2Proof.Machine

open Claims

/-! ## The bytes of a frame by their number -/

theorem payloadBytes_getElem? {p : List Byte} {i : Nat} {b : Byte} (h : p[i]? = some b) :
    (payloadBytes p)[2 * i]? = some (encByte b).1 ∧ (payloadBytes p)[2 * i + 1]? = some (encByte b).2 := by
  induction p generalizing i with
  | nil => cases h
  | cons a p ih =>
    cases i with
    | zero =>
      obtain rfl : a = b := by simpa using h
      exact ⟨rfl, rfl⟩
    | succ i =>
      obtain ⟨hhi, hlo⟩ := ih (i := i) (by simpa using h)
      rw [payloadBytes_cons, show 2 * (i + 1) = 2 * i + 1 + 1 by omega]
      exact ⟨by simpa using hhi, by simpa using hlo⟩

/-- The pair of payload byte `i` follows the start marker and the pairs before it (30_encoding.md R97). -/
theorem frameBytes_getElem?_pair {p : List Byte} {i : Nat} {b : Byte} (h : p[i]? = some b) :
    (frameBytes p)[1 + 2 * i]? = some (encByte b).1 ∧ (frameBytes p)[2 + 2 * i]? = some (encByte b).2 := by
  obtain ⟨hhi, hlo⟩ := payloadBytes_getElem? h
  obtain ⟨hlen, -⟩ := List.getElem?_eq_some_iff.mp h
  rw [frameBytes_eq, frameWith_eq, show 1 + 2 * i = 2 * i + 1 by omega, show 2 + 2 * i = 2 * i + 1 + 1 by omega,
    List.getElem?_cons_succ, List.getElem?_cons_succ,
    List.getElem?_append_left (by rw [payloadBytes_length]; omega),
    List.getElem?_append_left (by rw [payloadBytes_length]; omega)]
  exact ⟨hhi, hlo⟩

/-- The end marker and the checksum's pair follow the payload's pairs (30_encoding.md R97). -/
theorem frameBytes_getElem?_tail (p : List Byte) (j : Nat) :
    (frameBytes p)[1 + 2 * p.length + j]? = [Config.etx, encNib (hi4 (crcSeq p)), encNib (lo4 (crcSeq p))][j]? := by
  rw [frameBytes_eq, frameWith_eq, show 1 + 2 * p.length + j = 2 * p.length + j + 1 by omega, List.getElem?_cons_succ,
    List.getElem?_append_right (by rw [payloadBytes_length]; omega), payloadBytes_length, Nat.add_sub_cancel_left]

theorem frameBytes_length (p : List Byte) : (frameBytes p).length = 2 * p.length + 4 := by
  simp [frameBytes_eq, frameWith_eq]

theorem firstBytes_getElem? {m : Memory} {n i : Nat} (h : i < n) : (m.firstBytes n)[i]? = some (m.read i) := by
  simp [Memory.firstBytes, h]

/-! ## The sender's registers -/

/-- The part of the sender's invariant that speaks of its registers and of PAY (10_state.md R24, R26, R44 (v)). -/
structure SenderRegs (m : Memory) (r : TxRegs) : Prop where
  idx_stx : r.phase = .stx → r.idx = 0
  idx_lt : r.phase = .hi ∨ r.phase = .lo → r.idx.toNat < r.len.toNat
  cur : r.phase = .lo → r.cur = m.read r.idx.toNat
  acc : r.acc = crcSeq (m.firstBytes (bytesRead r))

/-- The frame that the sender is offering. -/
def sendFrame (s : State) : List Byte := frameBytes (s.pay.firstBytes s.tx.len.toNat)

theorem senderInv_iff {s : State} :
    senderInv s ↔ SenderRegs s.pay s.tx ∧
      ∃ before, s.env.txs = before ++ ((sendFrame s).take (bytesWritten s.tx)).map (fun w => ⟨w, 1⟩) :=
  ⟨fun ⟨hidx, hlt, hcur, hacc, htxs⟩ => ⟨⟨hidx, hlt, hcur, hacc⟩, htxs⟩,
    fun ⟨⟨hidx, hlt, hcur, hacc⟩, htxs⟩ => ⟨hidx, hlt, hcur, hacc, htxs⟩⟩

/-- The byte that a step offers is the next byte of the frame (R44 (vi)). -/
theorem sendFrame_getElem? {s : State} (h : SenderRegs s.pay s.tx) :
    (sendFrame s)[bytesWritten s.tx]? = some (phaseByte s) := by
  have htail := frameBytes_getElem?_tail (s.pay.firstBytes s.tx.len.toNat)
  have hacc := h.acc
  rw [Memory.firstBytes_length] at htail
  rw [sendFrame]
  cases hp : s.tx.phase with
  | stx => rw [phaseByte, bytesWritten, hp, frameBytes_eq, frameWith_eq]; rfl
  | hi =>
    obtain ⟨hbyte, -⟩ := frameBytes_getElem?_pair (firstBytes_getElem? (m := s.pay) (h.idx_lt (.inl hp)))
    rw [phaseByte, bytesWritten, hp]
    exact hbyte
  | lo =>
    obtain ⟨-, hbyte⟩ := frameBytes_getElem?_pair (firstBytes_getElem? (m := s.pay) (h.idx_lt (.inr hp)))
    rw [phaseByte, bytesWritten, hp, h.cur hp]
    exact hbyte
  | etx =>
    rw [phaseByte, bytesWritten, hp]
    exact htail 0
  | chi =>
    rw [bytesRead, hp] at hacc
    rw [phaseByte, bytesWritten, hp, hacc, show 2 + 2 * s.tx.len.toNat = 1 + 2 * s.tx.len.toNat + 1 by omega]
    exact htail 1
  | clo =>
    rw [bytesRead, hp] at hacc
    rw [phaseByte, bytesWritten, hp, hacc, show 3 + 2 * s.tx.len.toNat = 1 + 2 * s.tx.len.toNat + 2 by omega]
    exact htail 2

/-- The registers are as they must be for the next byte of the frame. -/
def OneFurther (m : Memory) (r r' : TxRegs) : Prop :=
  SenderRegs m r' ∧ bytesWritten r' = bytesWritten r + 1

/-- After the start marker comes the first pair, or the end marker of an empty payload (R164). -/
theorem afterStx_oneFurther {s : State} (h : SenderRegs s.pay s.tx) (hp : s.tx.phase = .stx) :
    OneFurther s.pay s.tx (afterStx s).tx := by
  have hidx := h.idx_stx hp
  have hacc : s.tx.acc = crcSeq [] := by simpa [bytesRead, hp] using h.acc
  by_cases hlen : s.tx.len = 0
  · simp only [afterStx_eq, if_pos hlen]
    refine ⟨⟨by simp, by simp, by simp, ?_⟩, ?_⟩
    · simp [bytesRead, hlen, hacc]
    · simp [bytesWritten, hlen, hp]
  · have hpos : 0 < s.tx.len.toNat := Nat.pos_of_ne_zero fun h0 => hlen (BitVec.eq_of_toNat_eq h0)
    simp only [afterStx_eq, if_neg hlen]
    refine ⟨⟨by simp, by simp [hidx, hpos], by simp, ?_⟩, ?_⟩
    · simp [bytesRead, hidx, hacc]
    · simp [bytesWritten, hidx, hp]

/-- After the high code of a byte comes its low code, and the byte has been read (R162). -/
theorem loadPay_oneFurther {s : State} (h : SenderRegs s.pay s.tx) (hp : s.tx.phase = .hi) :
    OneFurther s.pay s.tx (setTxPhase .lo (loadPay s)).tx := by
  have hlt := h.idx_lt (.inl hp)
  have hacc : s.tx.acc = crcSeq (s.pay.firstBytes s.tx.idx.toNat) := by simpa [bytesRead, hp] using h.acc
  simp only [setTxPhase_tx, loadPay_tx]
  refine ⟨⟨by simp, by simp [hlt], by simp, ?_⟩, ?_⟩
  · simp only [bytesRead, Memory.firstBytes_succ, crcSeq_append, hacc]
  · simp only [bytesWritten, hp]; omega

/-- After a low code comes the next pair, or the end marker (R163). -/
theorem afterLo_oneFurther {s : State} (h : SenderRegs s.pay s.tx) (hp : s.tx.phase = .lo) :
    OneFurther s.pay s.tx (afterLo s).tx := by
  have hlt := h.idx_lt (.inr hp)
  have hacc : s.tx.acc = crcSeq (s.pay.firstBytes (s.tx.idx.toNat + 1)) := by simpa [bytesRead, hp] using h.acc
  by_cases hnext : s.tx.idx.toNat + 1 < s.tx.len.toNat
  · have hidx : (s.tx.idx.toNat + 1) % 256 = s.tx.idx.toNat + 1 := Nat.mod_eq_of_lt (by omega)
    rw [afterLo_of_lt hnext]
    refine ⟨⟨by simp, by simp [hidx, hnext], by simp, ?_⟩, ?_⟩
    · simp [bytesRead, hidx, hacc]
    · simp [bytesWritten, hidx, hp]; omega
  · have hlast : s.tx.idx.toNat + 1 = s.tx.len.toNat := by omega
    rw [afterLo_of_not_lt hnext]
    refine ⟨⟨by simp, by simp, by simp, ?_⟩, ?_⟩
    · simp [bytesRead, ← hlast, hacc]
    · simp [bytesWritten, hp]; omega

/-- The end marker and the checksum's high code change the phase only (R165, R166). -/
theorem setTxPhase_oneFurther {s : State} {p : TxPhase} (h : SenderRegs s.pay s.tx)
    (hp : s.tx.phase = .etx ∧ p = .chi ∨ s.tx.phase = .chi ∧ p = .clo) :
    OneFurther s.pay s.tx (setTxPhase p s).tx := by
  have hacc := h.acc
  obtain ⟨hp, rfl⟩ | ⟨hp, rfl⟩ := hp <;> simp only [bytesRead, hp] at hacc
  · exact ⟨⟨by simp, by simp, by simp, hacc⟩, by simp [bytesWritten, hp]; omega⟩
  · exact ⟨⟨by simp, by simp, by simp, hacc⟩, by simp [bytesWritten, hp]; omega⟩

/-- An accepted write in any phase but the last leaves the registers one byte further on (R162 to R166). -/
theorem phaseAdvance_oneFurther {s : State} (w : Byte) (r : Nat) (rest : List Nat) (h : SenderRegs s.pay s.tx)
    (hclo : s.tx.phase ≠ .clo) :
    OneFurther s.pay s.tx (phaseAdvance s.tx.phase (logOffer w r rest (phaseRead s))).tx := by
  cases hp : s.tx.phase with
  | stx =>
    rw [phaseRead, hp]
    exact afterStx_oneFurther (s := logOffer w r rest s) h hp
  | hi =>
    rw [phaseRead, hp]
    exact loadPay_oneFurther h hp
  | lo =>
    rw [phaseRead, hp]
    exact afterLo_oneFurther (s := logOffer w r rest s) h hp
  | etx =>
    rw [phaseRead, hp]
    exact setTxPhase_oneFurther h (.inl ⟨hp, rfl⟩)
  | chi =>
    rw [phaseRead, hp]
    exact setTxPhase_oneFurther h (.inr ⟨hp, rfl⟩)
  | clo => exact absurd hp hclo

/-- An accepted write in any phase but the last, as a whole: the command runs on, one byte of the frame further. -/
theorem phaseAdvance_logOffer_eq {s : State} (w : Byte) (r : Nat) (rest : List Nat) (hclo : s.tx.phase ≠ .clo) :
    ∃ tx, tx.len = s.tx.len ∧
      phaseAdvance s.tx.phase (logOffer w r rest (phaseRead s)) = { offered w r rest s with tx := tx } := by
  obtain ⟨tx, hadv, hlen⟩ := phaseAdvance_eq hclo (logOffer w r rest (phaseRead s))
  obtain ⟨tx', hread, hlen'⟩ := phaseRead_eq s
  refine ⟨tx, hlen.trans (by rw [hread]; exact hlen'), ?_⟩
  rw [hadv, hread]
  rfl

/-! ## What keeps the two units' invariants -/

theorem sendStart_senderInv (len : Byte) (s : State) : senderInv (sendStart len s) :=
  senderInv_iff.mpr ⟨⟨fun _ => rfl, by simp, by simp, rfl⟩, s.env.txs, by simp [bytesWritten]⟩

/-- One more offer of the frame has been accepted (R44 (vi)). -/
theorem txs_append_offer {f : List Byte} {k : Nat} {w : Byte} {before txs : List Offer} (hw : f[k]? = some w)
    (h : txs = before ++ (f.take k).map (fun v => ⟨v, 1⟩)) :
    txs ++ [⟨w, 1⟩] = before ++ (f.take (k + 1)).map (fun v => ⟨v, 1⟩) := by
  rw [h, List.take_add_one, hw, List.map_append, List.append_assoc]
  rfl

theorem step_send_keeps_senderInv {s t : State} (hm : s.mode = .send) (h : senderInv s) (hstep : step s = .next t)
    (ht : t.mode = .send) : senderInv t := by
  obtain ⟨hregs, before, htxs⟩ := senderInv_iff.mp h
  obtain ⟨r, rest, -, ⟨rfl, hadv⟩ | ⟨-, rfl⟩⟩ := step_send_cases hm hstep
  · have hclo : s.tx.phase ≠ .clo := by
      intro hp
      rw [hadv, hp] at ht
      cases ht
    obtain ⟨hregs', hwritten⟩ := phaseAdvance_oneFurther (phaseByte s) 1 rest hregs hclo
    obtain ⟨tx, hlen, heq⟩ := phaseAdvance_logOffer_eq (phaseByte s) 1 rest hclo
    rw [← hadv] at hregs' hwritten heq
    subst heq
    refine senderInv_iff.mpr ⟨hregs', before, ?_⟩
    have hframe : sendFrame { offered (phaseByte s) 1 rest s with tx := tx } = sendFrame s := by
      simp only [sendFrame, hlen, offered]
    rw [hframe, hwritten]
    exact txs_append_offer (sendFrame_getElem? hregs) htxs
  · cases ht

/-- A held nibble is zero-extended (R207). -/
theorem hi4_setWidth (n : Nibble) : hi4 (n.setWidth 8) = 0 := by
  revert n; decide

theorem appendByte_keeps_receiverInv {s : State} (hwf : s.out.wf = true) (h : receiverInv s) (hp : s.rx.phase = .hi)
    (hlt : s.rx.pos < s.rx.maxlen) : receiverInv (appendByte s) := by
  obtain ⟨-, hacc, -⟩ := h
  have hpos : (s.rx.pos + 1).toNat = s.rx.pos.toNat + 1 := by bv_omega
  refine ⟨?_, ?_, fun hlo => ?_⟩
  · rw [appendByte_rx, hpos]
    exact BitVec.lt_def.mp hlt
  · rw [appendByte_rx, appendByte_out, hpos, Memory.firstBytes_append _ hwf, crcSeq_append, ← hacc]
  · rw [appendByte_rx, hp] at hlo
    cases hlo

theorem lowNibble_keeps_receiverInv {s : State} {n : Nibble} (hwf : s.out.wf = true) (h : receiverInv s)
    (ht : (lowNibble n s).mode = .recv) : receiverInv (lowNibble n s) := by
  obtain ⟨hpos, hacc, -⟩ := h
  obtain ⟨-, heq⟩ | ⟨-, hlt, heq⟩ | ⟨-, -, heq⟩ := lowNibble_cases n s <;> rw [heq] at ht ⊢
  · rw [checkSum] at ht
    split at ht <;> cases ht
  · exact appendByte_keeps_receiverInv hwf ⟨hpos, hacc, fun hlo => by cases hlo⟩ rfl hlt
  · cases ht

/-- A byte read keeps the receiver's invariant while the command runs on (R44 (i) to (iv)). -/
theorem receiveByte_keeps_receiverInv {w : Byte} {now : Time} {s : State} (hwf : s.out.wf = true)
    (h : s.rx.haveStx = true → receiverInv s) (hm : (receiveByte w now s).mode = .recv)
    (hs : (receiveByte w now s).rx.haveStx = true) : receiverInv (receiveByte w now s) := by
  obtain ⟨-, heq⟩ | ⟨-, hidle, heq⟩ | ⟨-, hstx, heq⟩ | ⟨-, -, heq⟩ | ⟨n, -, hstx, -, heq⟩ | ⟨n, -, hstx, -, heq⟩ :=
    receiveByte_cases w now s <;> rw [heq] at hm hs ⊢
  · exact ⟨Nat.zero_le _, rfl, fun hlo => by cases hlo⟩
  · exact absurd hs (by rw [hidle]; decide)
  · exact h hstx
  · cases hm
  · obtain ⟨hpos, hacc, -⟩ := h hstx
    exact ⟨hpos, hacc, fun _ => hi4_setWidth n⟩
  · exact lowNibble_keeps_receiverInv hwf (h hstx) hm

theorem step_recv_keeps_receiverInv {s t : State} (hm : s.mode = .recv) (hwf : s.out.wf = true)
    (h : s.rx.haveStx = true → receiverInv s) (hstep : step s = .next t) (ht : t.mode = .recv)
    (hs : t.rx.haveStx = true) : receiverInv t := by
  obtain ⟨d, ts, cs, w, ws, rfl⟩ | ⟨d, ts, cs, rfl⟩ := step_recv_cases hm hstep
  · exact receiveByte_keeps_receiverInv hwf h ht hs
  · rw [receiveNothing] at ht hs ⊢
    split at ht
    · cases ht
    next hlate =>
      rw [if_neg hlate] at hs ⊢
      exact h hs

/-! ## What a step does to the memories and to the mode -/

theorem ReceiverWrites.out_wf {s u : State} (h : ReceiverWrites s u) (hwf : s.out.wf = true) : u.out.wf = true := by
  obtain hout | ⟨v, -, hout⟩ := h.out <;> rw [hout]
  · exact hwf
  · exact Memory.write_wf v hwf s.rx.pos.isLt

/-- A sender step leaves the mode or makes the block idle, and leaves both memories. -/
theorem step_send_mode_memories {s t : State} (hm : s.mode = .send) (hstep : step s = .next t) :
    (t.mode = .send ∨ t.mode = .idle) ∧ t.pay = s.pay ∧ t.out = s.out := by
  obtain ⟨u, hu, rfl | ⟨-, rfl⟩ | rfl⟩ := step_send_ends hm hstep
  · exact ⟨.inl (hu.mode.trans hm), hu.pay, hu.out⟩
  · exact ⟨.inr rfl, hu.pay, hu.out⟩
  · exact ⟨.inr rfl, hu.pay, hu.out⟩

/-- A receiver step leaves the mode or makes the block idle, leaves PAY and keeps OUT canonical. -/
theorem step_recv_mode_memories {s t : State} (hm : s.mode = .recv) (hwf : s.out.wf = true)
    (hstep : step s = .next t) : (t.mode = .recv ∨ t.mode = .idle) ∧ t.pay = s.pay ∧ t.out.wf = true := by
  obtain ⟨u, hu, rfl | ⟨-, rfl⟩ | ⟨c, -, rfl⟩⟩ := step_recv_ends hm hstep
  · exact ⟨.inl (hu.mode.trans hm), hu.pay, hu.out_wf hwf⟩
  · exact ⟨.inr rfl, hu.pay, hu.out_wf hwf⟩
  · exact ⟨.inr rfl, hu.pay, hu.out_wf hwf⟩

/-! ## The invariant -/

/-- In an idle block only the canonical memories count. -/
theorem inv_of_idle {s : State} (hm : s.mode = .idle) (hpay : s.pay.wf = true) (hout : s.out.wf = true) : inv s :=
  ⟨hpay, hout, fun h => (by rw [hm] at h; cases h), fun h => (by rw [hm] at h; cases h)⟩

theorem step_idle_keeps_inv {s t : State} (hm : s.mode = .idle) (hpay : s.pay.wf = true) (hout : s.out.wf = true)
    (hstep : step s = .next t) : inv t := by
  obtain rfl | ⟨a, v, rest, rfl⟩ | ⟨a, v, rest, rfl⟩ | ⟨rest, -, rfl⟩ | ⟨len, rest, rfl⟩ | ⟨max, timeout, e, rfl⟩ :=
    step_idle_cases hm hstep
  · exact inv_of_idle hm hpay hout
  · exact inv_of_idle hm (Memory.write_wf v hpay a.isLt) hout
  · exact inv_of_idle hm hpay (Memory.write_wf v hout a.isLt)
  · exact inv_of_idle rfl hpay hout
  · exact ⟨hpay, hout, fun _ => sendStart_senderInv len _, fun h => (by cases h)⟩
  · exact ⟨hpay, hout, fun h => (by cases h), fun _ hs => (by cases hs)⟩

/-! ## The statements -/

/-- Settles O5: both memories are empty after reset and no unit runs. -/
theorem resetSatisfiesInvariant : Obligations.ResetSatisfiesInvariant := by
  obtain ⟨hpay, hout⟩ := reset_memories_wf
  exact inv_of_idle rfl hpay hout

/-- Settles O6, by the mode: the idle block starts a unit with its invariant, and each unit's steps keep their own. -/
theorem stepKeepsInvariant : Obligations.StepKeepsInvariant := by
  rintro s t ⟨hpay, hout, hsend, hrecv⟩ hstep
  cases hm : s.mode with
  | idle => exact step_idle_keeps_inv hm hpay hout hstep
  | send =>
    obtain ⟨hmode, hpay', hout'⟩ := step_send_mode_memories hm hstep
    refine ⟨hpay' ▸ hpay, hout' ▸ hout, fun ht => step_send_keeps_senderInv hm (hsend hm) hstep ht, fun ht => ?_⟩
    rw [ht] at hmode
    obtain h | h := hmode <;> cases h
  | recv =>
    obtain ⟨hmode, hpay', hout'⟩ := step_recv_mode_memories hm hout hstep
    refine ⟨hpay' ▸ hpay, hout', fun ht => ?_, fun ht hs => step_recv_keeps_receiverInv hm hout (hrecv hm) hstep ht hs⟩
    rw [ht] at hmode
    obtain h | h := hmode <;> cases h

end Sys2Proof.Machine
end

section
/-!
What every step leaves alone and how commands end (20_memory.md section 1, 10_state.md section 2, 60_exceptions.md
section 1): the statements O7 to O10.
-/

namespace Sys2Proof.Machine

/-- Settles O7, by the unit that runs: each exit of a command writes no more than the results and the mode. -/
theorem runningUnitFrame : Obligations.RunningUnitFrame := by
  intro s t hstep
  cases hm : s.mode with
  | idle => exact ⟨fun h => absurd rfl h, fun h => by (cases h), fun h => by (cases h)⟩
  | send =>
    obtain ⟨u, hu, hends⟩ := step_send_ends hm hstep
    obtain ⟨o, rest, henv⟩ := hu.env
    have hframe : t.env = u.env ∧ t.pay = u.pay ∧ t.unitOut = u.unitOut ∧ t.freeDraws = u.freeDraws ∧ t.out = u.out ∧
        t.rx = u.rx ∧ t.tx = u.tx := by
      obtain rfl | ⟨-, rfl⟩ | rfl := hends <;> exact ⟨rfl, rfl, rfl, rfl, rfl, rfl, rfl⟩
    obtain ⟨he, hpay, hunit, hfree, hout, hrx, htx⟩ := hframe
    rw [he, hpay, hunit, hfree, hout, hrx, htx, henv]
    exact ⟨fun _ => ⟨rfl, hu.pay, hu.unitOut, hu.freeDraws⟩,
      fun _ => ⟨hu.out, hu.rx, rfl, rfl, rfl, rfl, hu.len, o, rfl⟩, fun h => by (cases h)⟩
  | recv =>
    obtain ⟨u, hu, hends⟩ := step_recv_ends hm hstep
    have hframe : t.env = u.env ∧ t.pay = u.pay ∧ t.unitOut = u.unitOut ∧ t.freeDraws = u.freeDraws ∧
        t.tx = u.tx ∧ t.rx = u.rx := by
      obtain rfl | ⟨-, rfl⟩ | ⟨c, -, rfl⟩ := hends <;> exact ⟨rfl, rfl, rfl, rfl, rfl, rfl⟩
    obtain ⟨he, hpay, hunit, hfree, htx, hrx⟩ := hframe
    rw [he, hpay, hunit, hfree, htx, hrx]
    exact ⟨fun _ => ⟨hu.host, hu.pay, hu.unitOut, hu.freeDraws⟩, fun h => by (cases h),
      fun _ => ⟨hu.tx, hu.txs, hu.txAnswers, hu.maxlen, hu.timeout⟩⟩

/-- Settles O8: OUT changes by one write at `rx.pos`, below the capacity, or not at all. -/
theorem outWritesStayBelowCapacity : Obligations.OutWritesStayBelowCapacity := by
  intro s t hm hstep a hne
  obtain ⟨u, hu, hends⟩ := step_recv_ends hm hstep
  have hout : t.out = u.out := by
    obtain rfl | ⟨-, rfl⟩ | ⟨c, -, rfl⟩ := hends <;> rfl
  rw [hout] at hne
  obtain hsame | ⟨v, hlt, hwrite⟩ := hu.out
  · exact absurd (by rw [hsame]) hne
  · have ha : a = s.rx.pos.toNat := by
      by_contra hna
      exact hne (by rw [hwrite, Memory.read_write_ne _ v hna])
    exact ⟨ha, ha ▸ BitVec.lt_def.mp hlt⟩

/-- Settles O9, by the mode: an idle block's acts but reset leave the results, and a unit's step that stays in its mode
has taken no exit. -/
theorem resultsHoldUntilExit : Obligations.ResultsHoldUntilExit := by
  intro s t hstep hrun hreset
  cases hm : s.mode with
  | idle =>
    obtain rfl | ⟨a, v, rest, rfl⟩ | ⟨a, v, rest, rfl⟩ | ⟨rest, hh, rfl⟩ | ⟨len, rest, rfl⟩ | ⟨max, timeout, e, rfl⟩ :=
      step_idle_cases hm hstep
    case inr.inr.inr.inl => exact absurd hh (hreset hm rest)
    all_goals exact ⟨rfl, rfl, rfl⟩
  | send =>
    have hbusy : t.mode ≠ .idle := hrun.resolve_left (by rw [hm]; decide)
    obtain ⟨u, hu, rfl | ⟨-, rfl⟩ | rfl⟩ := step_send_ends hm hstep
    · exact ⟨hu.resOk, hu.resLen, hu.resCause⟩
    · exact absurd rfl hbusy
    · exact absurd rfl hbusy
  | recv =>
    have hbusy : t.mode ≠ .idle := hrun.resolve_left (by rw [hm]; decide)
    obtain ⟨u, hu, rfl | ⟨-, rfl⟩ | ⟨c, -, rfl⟩⟩ := step_recv_ends hm hstep
    · exact ⟨hu.resOk, hu.resLen, hu.resCause⟩
    · exact absurd rfl hbusy
    · exact absurd rfl hbusy

theorem mem_recvFailures {c : Cause} :
    c ∈ recvFailures ↔ c = .timeout ∨ c = .corrupt ∨ c = .overflow ∨ c = .checksum := by
  simp [recvFailures]

/-- Settles O10: the endings of the two units' steps, one by one. -/
theorem commandsEndOnlyAsListed : Obligations.CommandsEndOnlyAsListed := by
  intro s t hstep
  constructor
  · intro hm
    obtain ⟨u, hu, rfl | ⟨he, rfl⟩ | ⟨c, hc, rfl⟩⟩ := step_recv_ends hm hstep
    · exact .inl (hu.mode.trans hm)
    · exact .inr ⟨rfl, .inl ⟨rfl, rfl, rfl, he⟩⟩
    · exact .inr ⟨rfl, .inr ⟨rfl, rfl, mem_recvFailures.mp hc⟩⟩
  · intro hm
    obtain ⟨u, hu, rfl | ⟨hp, rfl⟩ | rfl⟩ := step_send_ends hm hstep
    · exact .inl (hu.mode.trans hm)
    · exact .inr ⟨rfl, rfl, .inl ⟨rfl, rfl, hp⟩⟩
    · exact .inr ⟨rfl, rfl, .inr ⟨rfl, rfl⟩⟩

end Sys2Proof.Machine
end

section
/-!
What a step selects and where the model stops (10_state.md R36, R42; 93_implementation_defined.md U8): the statements O1
to O4, O28, O35, O46, O58 and O59.
-/

namespace Sys2Proof.Machine

open Claims

/-! ## The rows that a step selects -/

/-- The step of the sending block runs the row of its phase (42_frame_sender.md R161). -/
theorem step_send_eq_exec {s : State} {p : TxPhase} (hm : s.mode = .send) (hp : s.tx.phase = p) :
    step s = exec (senderInstr p) s := by
  rw [exec_senderInstr hm hp, step_send hm, hp]

/-- RX.POLL asks the environment and acts on what it finds, as the step does (43_frame_receiver.md R201). -/
theorem exec_rxPoll_of_recv {s : State} (h : s.mode = .recv) : exec .rxPoll s = step s :=
  (if_pos h).trans (step_recv h).symm

/-- Without a byte the deadline decides between RX.TIMEOUT and RX.WAIT (R203, R204). -/
theorem receiveNothing_eq (now : Time) (s : State) :
    receiveNothing now s =
      if s.rx.timeout.toNat < (now - s.rx.t0).toNat then failed .timeout s else s := by
  by_cases h : s.rx.timeout.toNat < (now - s.rx.t0).toNat
  · rw [receiveNothing, if_pos (deadlinePassed_iff.mpr h), if_pos h, raise_eq_failed]
  · rw [receiveNothing, if_neg (mt deadlinePassed_iff.mp h), if_neg h]

/-- A step that reads a byte runs the byte's row at the state after the poll (R201). -/
theorem step_recv_byte_eq_exec {s : State} {d c : Nat} {ts cs : List Nat} {w : Byte} {ws : List Byte}
    (h : s.mode = .recv) (ht : s.env.ticks = d :: ts) (hc : s.env.rxAvail = c :: cs) (h0 : 0 < c)
    (hw : s.env.rxBytes = w :: ws) : step s = exec (decodeWire w) (polledByte d ts cs ws s) := by
  rw [step_recv_byte h ht hc h0 hw]
  exact (exec_decodeWire (s := polledByte d ts cs ws s) w h).symm

/-- Settles O1: each clause is the selection of its mode. -/
theorem stepRunsSelectedInstruction : Obligations.StepRunsSelectedInstruction := by
  intro s
  refine ⟨?command, fun hm hp => step_send_eq_exec hm hp, fun hm hp => step_send_eq_exec hm hp,
    fun hm hp => step_send_eq_exec hm hp, fun hm hp => step_send_eq_exec hm hp, fun hm hp => step_send_eq_exec hm hp,
    fun hm hp => step_send_eq_exec hm hp, ?byte, ?silent⟩
  case command =>
    intro op len timeout rest i hm hh hi
    obtain rfl := Except.ok.inj hi
    exact step_idle_command hm hh
  case byte =>
    intro d ts c cs w ws i hm ht hc h0 hw hi
    obtain rfl := Except.ok.inj hi
    exact step_recv_byte_eq_exec hm ht hc h0 hw
  case silent =>
    intro d ts cs hm ht hc
    rw [step_recv_silent hm ht hc, receiveNothing_eq]
    by_cases hlate : s.rx.timeout.toNat < (BitVec.ofNat timeW (s.env.clock + d) - s.rx.t0).toNat
    · rw [if_pos (BitVec.lt_def.mpr hlate), exec_rxTimeout_of_lt (s := polledNothing d ts cs s) hm hlate]
      exact congrArg _ (if_pos hlate)
    · rw [if_neg (mt BitVec.lt_def.mp hlate),
        exec_rxWait_of_le (s := polledNothing d ts cs s) hm (Nat.not_lt.mp hlate)]
      exact congrArg _ (if_neg hlate)

/-- Settles O2: TX.STEP and RX.POLL are the two steps as rows. -/
theorem stepIsTxStepOrRxPoll : Obligations.StepIsTxStepOrRxPoll := by
  intro s
  exact ⟨fun hm => by rw [exec_txStep_of_send hm, step_send_eq_offer hm], fun hm => (exec_rxPoll_of_recv hm).symm⟩

/-- Settles O3: the step of the idle block for each act of the host. -/
theorem idleBlockServesHost : Obligations.IdleBlockServesHost := by
  intro s hm
  exact ⟨step_idle_nothing hm, fun _ _ _ hh => step_idle_writePay hm hh, fun _ _ _ hh => step_idle_writeOut hm hh⟩

/-- Settles O4: the reset of an idle block is `powerOnReset`, whatever its free values. -/
theorem resetClearsControl : Obligations.ResetClearsControl := by
  refine ⟨⟨rfl, rfl, rfl, rfl⟩, fun s rest hm hh => ?_⟩
  exact ⟨powerOnReset (taken rest s), step_idle_reset hm hh, rfl, rfl, rfl, rfl, rfl, rfl, rfl⟩

/-- Settles O28: a block that is not ready leaves the command at the port. -/
theorem busyCommandWaits : Obligations.BusyCommandWaits := by
  intro s hm
  have hready : ¬ s.cmdReady = true := mt cmdReady_iff.mp hm
  exact ⟨fun _ => if_neg hready, fun _ _ => if_neg hready⟩

/-- Settles O35: the step of every phase is one write of its byte. -/
theorem txStepOffersOneByte : Obligations.TxStepOffersOneByte := by
  intro s r rest hm hr
  have hanswers : (phaseRead s).env.txAnswers = r :: rest := by rw [phaseRead_env, hr]
  have hlog : (logOffer (phaseByte s) r rest (phaseRead s)).env = (offered (phaseByte s) r rest s).env := by
    rw [logOffer_env, phaseRead_env, offered]
  rw [exec_txStep_of_send hm]
  by_cases h1 : r = 1
  · subst h1
    exact ⟨_, phaseByte s, offer_one hanswers, (phaseAdvance_env _ _).trans hlog, rfl, fun h => absurd rfl h⟩
  · exact ⟨_, phaseByte s, offer_other hanswers h1, hlog, rfl, fun _ => ⟨rfl, rfl, rfl, rfl⟩⟩

/-- Settles O46: RX.POLL is the step, which reads a byte or tests the deadline. -/
theorem rxPollStep : Obligations.RxPollStep := by
  intro s d ts hm ht
  rw [exec_rxPoll_of_recv hm]
  constructor
  · intro c cs w ws hc h0 hw
    exact ⟨step_recv_byte_eq_exec hm ht hc h0 hw, _, step_recv_byte hm ht hc h0 hw⟩
  · intro cs hc
    rw [step_recv_silent hm ht hc, receiveNothing_eq, apply_ite Host.Outcome.next]
    rfl

/-! ## A device that never answers -/

theorem offer_stuck {w : Byte} {adv : State → State} {s : State} (h : s.env.txAnswers = []) :
    offer w adv s = .fault .txWriteNoAnswer := by
  rw [offer, h]

/-- The first of the three questions of a receiver step that is not answered names the fault (R201). -/
theorem poll_stuck {s : State} :
    (s.env.ticks = [] → poll s = .stuck .clockNoAnswer) ∧
    (s.env.ticks ≠ [] → s.env.rxAvail = [] → poll s = .stuck .rxAvailNoAnswer) ∧
    ∀ c cs, s.env.ticks ≠ [] → s.env.rxAvail = c :: cs → 0 < c → s.env.rxBytes = [] →
      poll s = .stuck .rxReadNoAnswer := by
  cases ht : s.env.ticks with
  | nil => exact ⟨fun _ => by rw [poll, sampleClock, ht], fun h => absurd rfl h, fun _ _ h => absurd rfl h⟩
  | cons d ts =>
    refine ⟨fun h => (by cases h), fun _ hc => ?_, fun c cs _ hc h0 hw => ?_⟩
    · simp only [poll, sampleClock_tick ht, hc]
    · simp only [poll, sampleClock_tick ht, hc, if_neg (Nat.pos_iff_ne_zero.mp h0), hw]

theorem exec_rxPoll_stuck {s : State} {f : Fault} (hm : s.mode = .recv) (h : poll s = .stuck f) :
    exec .rxPoll s = .fault f := by
  rw [exec_rxPoll_of_recv hm, step_recv hm, h]

/-- Settles O58: the faults of a write, of the three questions of RX.POLL in their order, and of RECV's sample. -/
theorem noAnswerIsStuck : Obligations.NoAnswerIsStuck := by
  intro s
  obtain ⟨hclock, havail, hread⟩ := poll_stuck (s := s)
  refine ⟨fun hm hr => ?send, fun hm ht => exec_rxPoll_stuck hm (hclock ht),
    fun hm ht hc => exec_rxPoll_stuck hm (havail ht hc),
    fun c cs hm ht hc h0 hw => exec_rxPoll_stuck hm (hread c cs ht hc h0 hw), fun max timeout hm ht => ?recv⟩
  case send =>
    have hoffer : offer (phaseByte s) (phaseAdvance s.tx.phase) (phaseRead s) = .fault .txWriteNoAnswer :=
      offer_stuck (by rw [phaseRead_env, hr])
    exact ⟨(step_send_eq_offer hm).trans hoffer, (exec_txStep_of_send hm).trans hoffer⟩
  case recv =>
    have hexec : exec (.recv max timeout) s = execRecv max timeout s := rfl
    rw [hexec, execRecv, if_pos (cmdReady_iff.mpr hm), sampleClock, ht]

/-! ## Rows in a state that does not select them -/

/-- The sender's rows outside mode SEND (log entry 10). -/
theorem exec_refused_of_not_send {s : State} {i : Instr} (hm : s.mode ≠ .send)
    (hi : i ∈ [Instr.txStep, .txStx, .txHi, .txLo, .txEtx, .txChi, .txClo, .txFail, .txDone]) :
    exec i s = .refused .notSelected := by
  have hsends : ∀ p, ¬ s.sends p = true := fun p h => hm (sends_iff.mp h).1
  simp only [List.mem_cons, List.not_mem_nil, or_false] at hi
  obtain rfl | rfl | rfl | rfl | rfl | rfl | rfl | rfl | rfl := hi
  case inl => exact if_neg hm
  case inr.inr.inr.inr.inr.inr.inr.inl => exact if_neg hm
  all_goals exact if_neg (hsends _)

/-- The sender's rows at another phase than their own. -/
theorem exec_refused_of_phase_ne {s : State} {i : Instr} {p : TxPhase} (hp : s.tx.phase ≠ p)
    (hi : (i, p) ∈ [(Instr.txStx, TxPhase.stx), (.txHi, .hi), (.txLo, .lo), (.txEtx, .etx), (.txChi, .chi),
      (.txClo, .clo), (.txDone, .clo)]) : exec i s = .refused .notSelected := by
  have hsends : ¬ s.sends p = true := fun h => hp (sends_iff.mp h).2
  simp only [List.mem_cons, List.not_mem_nil, or_false, Prod.mk.injEq] at hi
  obtain ⟨rfl, rfl⟩ | ⟨rfl, rfl⟩ | ⟨rfl, rfl⟩ | ⟨rfl, rfl⟩ | ⟨rfl, rfl⟩ | ⟨rfl, rfl⟩ | ⟨rfl, rfl⟩ := hi <;>
    exact if_neg hsends

/-- The outcomes that need a start marker, while none has come or the block does not receive. -/
theorem exec_refused_of_not_receives {s : State} {i : Instr} {w : Byte} {n : Nibble} (h : ¬ s.receives = true)
    (hi : i ∈ [Instr.rxEtx, .rxNibhi n, .rxNiblo n, .rxPay, .rxOvf, .rxChk, .rxBad w]) :
    exec i s = .refused .notSelected := by
  simp only [List.mem_cons, List.not_mem_nil, or_false] at hi
  obtain rfl | rfl | rfl | rfl | rfl | rfl | rfl := hi
  · exact if_neg h
  · exact if_neg fun hc => h hc.1
  · exact if_neg fun hc => h hc.1
  · exact if_neg fun hc => h hc.1
  · exact if_neg fun hc => h hc.1
  · exact if_neg fun hc => h hc.1
  · exact if_neg h

/-- The receiver's other rows outside mode RECV. -/
theorem exec_refused_of_not_recv {s : State} {i : Instr} {w : Byte} {now : Time} (hm : s.mode ≠ .recv)
    (hi : i ∈ [Instr.rxPoll, .rxSkip w, .rxWait now, .rxTimeout now, .rxStx now]) :
    exec i s = .refused .notSelected := by
  simp only [List.mem_cons, List.not_mem_nil, or_false] at hi
  obtain rfl | rfl | rfl | rfl | rfl := hi
  · exact if_neg hm
  · exact if_neg fun hc => hm hc.1
  · exact if_neg fun hc => hm hc.1
  · exact if_neg fun hc => hm hc.1
  · exact if_neg hm

/-! ## The receiver's outcomes when a register rules them out (log entry 10) -/

theorem exec_rxSkip_refused {s : State} (hs : s.rx.haveStx = true) (w : Byte) :
    exec (.rxSkip w) s = .refused .notSelected :=
  if_neg fun ⟨_, hidle⟩ => by rw [isIdle_iff, hs] at hidle; cases hidle

theorem exec_rxNibhi_refused {s : State} (n : Nibble) (hp : s.rx.phase = .lo) :
    exec (.rxNibhi n) s = .refused .notSelected :=
  if_neg fun ⟨_, hhi⟩ => by rw [hp] at hhi; cases hhi

theorem exec_rxNiblo_refused {s : State} (n : Nibble) (hp : s.rx.phase = .hi) :
    exec (.rxNiblo n) s = .refused .notSelected :=
  if_neg fun ⟨_, hlo⟩ => by rw [hp] at hlo; cases hlo

theorem exec_rxPay_refused {s : State} (h : s.rx.haveEtx = true ∨ s.rx.maxlen.toNat ≤ s.rx.pos.toNat) :
    exec .rxPay s = .refused .notSelected := by
  refine if_neg fun ⟨_, hcol, hlt⟩ => ?_
  obtain ⟨-, he⟩ := isCollecting_iff.mp hcol
  obtain h | h := h
  · rw [he] at h; cases h
  · exact absurd (BitVec.lt_def.mp hlt) (Nat.not_lt.mpr h)

theorem exec_rxOvf_refused {s : State} (h : s.rx.haveEtx = true ∨ s.rx.pos.toNat < s.rx.maxlen.toNat) :
    exec .rxOvf s = .refused .notSelected := by
  refine if_neg fun ⟨_, hcol, hlt⟩ => ?_
  obtain ⟨-, he⟩ := isCollecting_iff.mp hcol
  obtain h | h := h
  · rw [he] at h; cases h
  · exact hlt (BitVec.lt_def.mpr h)

theorem exec_rxChk_refused {s : State} (h : s.rx.haveEtx = false) : exec .rxChk s = .refused .notSelected := by
  refine if_neg fun ⟨_, hpend⟩ => ?_
  obtain ⟨-, he⟩ := isChecksumPending_iff.mp hpend
  rw [he] at h; cases h

/-- Settles O59: each row's selection fails in the states of its clause. -/
theorem unselectedStepsRefused : Obligations.UnselectedStepsRefused := by
  intro s
  refine ⟨fun hm i hi => exec_refused_of_not_send hm hi, fun _ i p hi hp => exec_refused_of_phase_ne hp hi, ?notRecv,
    fun _ now => ⟨fun hlate => ?late, fun hle => ?early⟩, ?noMarker, fun _ hs => ?afterMarker, fun hm => ?idle⟩
  case notRecv =>
    intro hm w now n i hi
    have hrec : ¬ s.receives = true := fun h => hm (receives_iff.mp h).1
    rw [show [Instr.rxPoll, .rxSkip w, .rxWait now, .rxTimeout now, .rxStx now, .rxEtx, .rxNibhi n, .rxNiblo n, .rxPay,
      .rxOvf, .rxChk, .rxBad w] = [Instr.rxPoll, .rxSkip w, .rxWait now, .rxTimeout now, .rxStx now] ++
        [.rxEtx, .rxNibhi n, .rxNiblo n, .rxPay, .rxOvf, .rxChk, .rxBad w] from rfl, List.mem_append] at hi
    obtain hi | hi := hi
    · exact exec_refused_of_not_recv hm hi
    · exact exec_refused_of_not_receives hrec hi
  case late =>
    refine if_neg fun ⟨_, hd⟩ => ?_
    exact absurd (deadlinePassed_eq_false_iff.mp hd) (Nat.not_le.mpr hlate)
  case early =>
    refine if_neg fun ⟨_, hd⟩ => ?_
    exact absurd (deadlinePassed_iff.mp hd) (Nat.not_lt.mpr hle)
  case noMarker =>
    intro _ hs w n i hi
    have hrec : ¬ s.receives = true := fun h => by
      obtain ⟨-, hstx⟩ := receives_iff.mp h
      rw [hs] at hstx
      cases hstx
    exact exec_refused_of_not_receives hrec hi
  case afterMarker =>
    exact ⟨exec_rxSkip_refused hs, exec_rxNibhi_refused, exec_rxNiblo_refused, exec_rxPay_refused, exec_rxOvf_refused,
      exec_rxChk_refused⟩
  case idle =>
    have hbusy : ¬ s.busy = true := fun h => busy_iff.mp h hm
    exact ⟨fun _ => if_neg hbusy, fun _ _ => if_neg hbusy⟩

end Sys2Proof.Machine
end

section
/-!
A whole SEND (42_frame_sender.md R170): as many accepted writes as wanted, one after the other, and the last write,
accepted or not. The statements O36 and O37.
-/

namespace Sys2Proof.Machine

open Claims

/-! ## Accepted writes -/

/-- The first `k` bytes of the frame have been offered and accepted; the sender's registers stand at `tx`. -/
def afterWrites (k : Nat) (rest : List Nat) (tx : TxRegs) (s : State) : State :=
  { s with
    tx := tx
    env := { s.env with
      txs := s.env.txs ++ ((sendFrame s).take k).map (fun w => ⟨w, 1⟩)
      txAnswers := rest } }

/-- Only in the last phase has all but one byte of the frame been offered (R44 (vi)). -/
theorem bytesWritten_eq_iff_clo {m : Memory} {r : TxRegs} (h : SenderRegs m r) :
    bytesWritten r = 2 * r.len.toNat + 3 ↔ r.phase = .clo := by
  have hlt := h.idx_lt
  cases hp : r.phase <;> simp only [bytesWritten, hp, reduceCtorEq, iff_false, iff_true]
  case hi => have := hlt (.inl hp); omega
  case lo => have := hlt (.inr hp); omega
  all_goals omega

/-- The byte offered after `k` accepted writes is byte number `k` of the frame. -/
theorem phaseByte_afterWrites {s : State} {k : Nat} {rest : List Nat} {tx : TxRegs} (hlen : tx.len = s.tx.len)
    (hregs : SenderRegs s.pay tx) (hk : bytesWritten tx = k) :
    (sendFrame s)[k]? = some (phaseByte (afterWrites k rest tx s)) := by
  have h := sendFrame_getElem? (s := afterWrites k rest tx s) hregs
  have hframe : sendFrame (afterWrites k rest tx s) = sendFrame s := by simp only [sendFrame, afterWrites, hlen]
  rw [hframe] at h
  rw [← h, ← hk]
  rfl

/-- One more accepted write. -/
theorem step_afterWrites {s : State} {k : Nat} {rest : List Nat} {tx : TxRegs} (hm : s.mode = .send)
    (hlen : tx.len = s.tx.len) (hregs : SenderRegs s.pay tx) (hk : bytesWritten tx = k)
    (hlt : k < 2 * s.tx.len.toNat + 3) :
    ∃ tx', step (afterWrites k (1 :: rest) tx s) = .next (afterWrites (k + 1) rest tx' s) ∧
      tx'.len = s.tx.len ∧ SenderRegs s.pay tx' ∧ bytesWritten tx' = k + 1 := by
  have hclo : tx.phase ≠ .clo := by
    intro hp
    have := (bytesWritten_eq_iff_clo hregs).mpr hp
    rw [hlen] at this
    omega
  have hbyte := phaseByte_afterWrites (rest := 1 :: rest) hlen hregs hk
  generalize hu : afterWrites k (1 :: rest) tx s = u at hbyte ⊢
  have hstep : step u = _ := step_send_one (rest := rest) (by rw [← hu]; exact hm) (by rw [← hu]; rfl)
  have hpay : u.pay = s.pay := by rw [← hu]; rfl
  have htx : u.tx = tx := by rw [← hu]; rfl
  rw [← htx] at hregs hclo
  rw [← hpay] at hregs
  obtain ⟨hregs', hwritten⟩ := phaseAdvance_oneFurther (phaseByte u) 1 rest hregs hclo
  obtain ⟨tx', hlen', heq⟩ := phaseAdvance_logOffer_eq (phaseByte u) 1 rest hclo
  rw [heq] at hregs' hwritten hstep
  refine ⟨tx', ?_, ?_, hpay ▸ hregs', ?_⟩
  · rw [hstep, afterWrites, ← txs_append_offer hbyte rfl, ← hu]
    rfl
  · rw [hlen', htx, hlen]
  · rw [hwritten, htx, hk]

/-- The last accepted write ends the command (R167, R169). -/
theorem step_last_write {s : State} {rest : List Nat} {tx : TxRegs} (hm : s.mode = .send) (hlen : tx.len = s.tx.len)
    (hregs : SenderRegs s.pay tx) (hk : bytesWritten tx = 2 * s.tx.len.toNat + 3) :
    step (afterWrites (2 * s.tx.len.toNat + 3) (1 :: rest) tx s) =
      .next (complete 0 (afterWrites (2 * s.tx.len.toNat + 4) rest tx s)) := by
  have hclo : tx.phase = .clo := (bytesWritten_eq_iff_clo hregs).mp (by rw [hk, hlen])
  have hbyte := phaseByte_afterWrites (rest := 1 :: rest) hlen hregs hk
  generalize hu : afterWrites (2 * s.tx.len.toNat + 3) (1 :: rest) tx s = u at hbyte ⊢
  have hphase : u.tx.phase = .clo := by rw [← hu]; exact hclo
  have hstep : step u = _ := step_send_one (rest := rest) (by rw [← hu]; exact hm) (by rw [← hu]; rfl)
  rw [phaseRead, hphase] at hstep
  rw [hstep, afterWrites, ← txs_append_offer hbyte rfl, ← hu]
  rfl

/-- A run of accepted writes that stops short of the last one. -/
theorem run_accepted_writes {s : State} (k : Nat) (rest : List Nat) (hm : s.mode = .send)
    (hregs : SenderRegs s.pay s.tx) (h0 : bytesWritten s.tx = 0) (hk : k ≤ 2 * s.tx.len.toNat + 3)
    (hr : s.env.txAnswers = List.replicate k 1 ++ rest) :
    ∃ tx, run k s = .next (afterWrites k rest tx s) ∧
      tx.len = s.tx.len ∧ SenderRegs s.pay tx ∧ bytesWritten tx = k := by
  induction k generalizing rest with
  | zero =>
    refine ⟨s.tx, ?_, rfl, hregs, h0⟩
    rw [List.replicate_zero, List.nil_append] at hr
    rw [run_zero, afterWrites, List.take_zero, List.map_nil, List.append_nil, ← hr]
  | succ k ih =>
    rw [List.replicate_succ', List.append_assoc] at hr
    obtain ⟨tx, hrun, hlen, hregs', hk'⟩ := ih (1 :: rest) (by omega) hr
    obtain ⟨tx', hstep, hafter⟩ := step_afterWrites (rest := rest) hm hlen hregs' hk' (by omega)
    exact ⟨tx', by rw [run_add k 1 hrun, run_next 0 hstep, run_zero], hafter⟩

/-! ## From the acceptance on -/

/-- The acceptance of SEND and `k` accepted writes. -/
theorem run_send_accepted {s : State} {len : Byte} {timeout : Time} {acts : List HostAct} {k : Nat} {rest : List Nat}
    (hm : s.mode = .idle) (hh : s.env.host = .command 0 len timeout :: acts) (hk : k ≤ 2 * len.toNat + 3)
    (hr : s.env.txAnswers = List.replicate k 1 ++ rest) :
    ∃ tx, run (1 + k) s = .next (afterWrites k rest tx (sendStart len (taken acts s))) ∧
      tx.len = len ∧ SenderRegs s.pay tx ∧ bytesWritten tx = k := by
  obtain ⟨hregs, -⟩ := senderInv_iff.mp (sendStart_senderInv len (taken acts s))
  obtain ⟨tx, hrun, hafter⟩ := run_accepted_writes (s := sendStart len (taken acts s)) k rest rfl hregs rfl hk hr
  refine ⟨tx, ?_, hafter⟩
  rw [Nat.add_comm, run_next k (step_idle_send hm hh), hrun]

/-- Settles O36: all writes but the last by the run of accepted writes, the last in phase T_CLO. -/
theorem sendDeliversFrame : Obligations.SendDeliversFrame := by
  rintro s len timeout acts rest n rfl hm hh hr
  constructor
  · intro k hpos hk
    obtain ⟨j, rfl⟩ : ∃ j, k = 1 + j := ⟨k - 1, by omega⟩
    have hsplit : s.env.txAnswers = List.replicate j 1 ++ (List.replicate (2 * len.toNat + 4 - j) 1 ++ rest) := by
      rw [hr, ← List.append_assoc, ← List.replicate_add, Nat.add_sub_cancel' (by omega)]
    obtain ⟨tx, hrun, -⟩ := run_send_accepted hm hh (by omega) hsplit
    exact ⟨_, hrun, rfl⟩
  · rw [List.replicate_succ', List.append_assoc] at hr
    obtain ⟨tx, hrun, hlen, hregs, hk⟩ := run_send_accepted hm hh (Nat.le_refl _) hr
    have hstep := step_last_write (s := sendStart len (taken acts s)) (rest := rest) rfl hlen hregs hk
    have hwhole : (sendFrame (sendStart len (taken acts s))).take (2 * len.toNat + 4) =
        frameBytes (s.pay.firstBytes len.toNat) :=
      List.take_of_length_le (by rw [sendFrame, frameBytes_length, Memory.firstBytes_length]; exact Nat.le_refl _)
    refine ⟨complete 0 (afterWrites (2 * len.toNat + 4) rest tx (sendStart len (taken acts s))), ?_, rfl, rfl, rfl, rfl,
      ?_, rfl, rfl, rfl⟩
    · rw [show 1 + (2 * len.toNat + 4) = 1 + (2 * len.toNat + 3) + 1 by omega, run_add _ 1 hrun]
      exact run_next 0 hstep
    · rw [complete_env, afterWrites, hwhole]
      rfl

/-- Settles O37: the accepted writes before it, then the write that is not answered 1. -/
theorem sendStopsAtFailedWrite : Obligations.SendStopsAtFailedWrite := by
  rintro s len timeout acts rest n k r rfl hm hh hk h1 hr
  obtain ⟨tx, hrun, hlen, hregs, hwritten⟩ := run_send_accepted hm hh (by omega) hr
  have hbyte := phaseByte_afterWrites (s := sendStart len (taken acts s)) (rest := r :: rest) hlen hregs hwritten
  generalize hu : afterWrites k (r :: rest) tx (sendStart len (taken acts s)) = u at hrun hbyte
  have hstep : step u = _ := step_send_other (rest := rest) (by rw [← hu]; rfl) (by rw [← hu]; rfl) h1
  refine ⟨raise .transport (logOffer (phaseByte u) r rest (phaseRead u)), phaseByte u, ?_, rfl, rfl, rfl, rfl, hbyte,
    ?_, ?_⟩
  · rw [← Nat.add_assoc, run_add _ 1 hrun, run_next 0 hstep, run_zero]
  · rw [raise_env, logOffer_env, phaseRead_env, ← hu]
    rfl
  · rw [raise_env, logOffer_env]

end Sys2Proof.Machine
end

section
/-!
Registers left unspecified (10_state.md R45, R46): two states whose specified registers agree take the same steps, as
far as the host and the transport can tell. The statement O11.
-/

namespace Sys2Proof.Machine

open Claims

/-! ## States that behave alike -/

/-- The sender's registers agree but for `tx.cur` where no byte is held (R46). -/
structure SameSender (r r' : TxRegs) : Prop where
  phase : r.phase = r'.phase
  idx : r.idx = r'.idx
  len : r.len = r'.len
  acc : r.acc = r'.acc
  cur : r.phase = .lo → r.cur = r'.cur

/-- The receiver's registers agree but for those that a start marker sets, before it, and for `rx.cur` where no nibble
is held (R46). -/
structure SameReceiver (r r' : RxRegs) : Prop where
  haveStx : r.haveStx = r'.haveStx
  t0 : r.t0 = r'.t0
  maxlen : r.maxlen = r'.maxlen
  timeout : r.timeout = r'.timeout
  haveEtx : r.haveStx = true → r.haveEtx = r'.haveEtx
  phase : r.haveStx = true → r.phase = r'.phase
  pos : r.haveStx = true → r.pos = r'.pos
  acc : r.haveStx = true → r.acc = r'.acc
  cur : r.haveStx = true → r.phase = .lo → r.cur = r'.cur

/-- Before a start marker only the deadline and the capacity count (R200). -/
theorem SameReceiver.of_idle {r r' : RxRegs} (hs : r.haveStx = false) (hs' : r'.haveStx = false) (ht0 : r.t0 = r'.t0)
    (hmax : r.maxlen = r'.maxlen) (htimeout : r.timeout = r'.timeout) : SameReceiver r r' := by
  have hno : ¬ r.haveStx = true := Bool.eq_false_iff.mp hs
  exact ⟨hs.trans hs'.symm, ht0, hmax, htimeout, fun h => absurd h hno, fun h => absurd h hno, fun h => absurd h hno,
    fun h => absurd h hno, fun h => absurd h hno⟩

/-- The two states agree in everything that a later step reads. -/
structure Alike (s t : State) : Prop where
  outside : sameOutside s t
  sender : s.mode = .send → SameSender s.tx t.tx
  receiver : s.mode = .recv → SameReceiver s.rx t.rx

/-- Two outcomes that no later step can tell apart. -/
def AlikeOutcome : Result → Result → Prop
  | .next s, .next t => Alike s t
  | .fault f, .fault g => f = g
  | .refused a, .refused b => a = b
  | _, _ => False

theorem Alike.of_idle {s t : State} (h : sameOutside s t) (hm : s.mode = .idle) : Alike s t :=
  ⟨h, fun hs => (by rw [hm] at hs; cases hs), fun hr => (by rw [hm] at hr; cases hr)⟩

theorem Alike.of_send {s t : State} (h : sameOutside s t) (hm : s.mode = .send) (hr : SameSender s.tx t.tx) :
    Alike s t :=
  ⟨h, fun _ => hr, fun hs => (by rw [hm] at hs; cases hs)⟩

theorem Alike.of_recv {s t : State} (h : sameOutside s t) (hm : s.mode = .recv) (hr : SameReceiver s.rx t.rx) :
    Alike s t :=
  ⟨h, fun hs => (by rw [hm] at hs; cases hs), fun _ => hr⟩

theorem Alike.raise {s t : State} (h : sameOutside s t) (c : Cause) :
    Alike (Machine.raise c s) (Machine.raise c t) := by
  obtain ⟨-, -, -, -, hpay, hout, henv⟩ := h
  exact .of_idle ⟨rfl, rfl, rfl, rfl, hpay, hout, henv⟩ rfl

theorem Alike.complete {s t : State} (h : sameOutside s t) (len : Byte) :
    Alike (Machine.complete len s) (Machine.complete len t) := by
  obtain ⟨-, -, -, -, hpay, hout, henv⟩ := h
  exact .of_idle ⟨rfl, rfl, rfl, rfl, hpay, hout, henv⟩ rfl

/-! ## The sender -/

theorem Alike.phaseByte_eq {s t : State} (h : Alike s t) (hm : s.mode = .send) : phaseByte s = phaseByte t := by
  obtain ⟨-, -, -, -, hpay, -, -⟩ := h.outside
  have hr := h.sender hm
  rw [phaseByte, phaseByte, ← hr.phase, ← hr.idx, ← hr.acc, ← hpay]
  cases hp : s.tx.phase with
  | lo => simp only [hr.cur hp]
  | _ => rfl

/-- The same byte accepted by the transport leaves the registers alike. -/
theorem Alike.phaseAdvance {s t : State} (h : Alike s t) (hm : s.mode = .send) (w : Byte) (r : Nat) (rest : List Nat) :
    Alike (Machine.phaseAdvance s.tx.phase (logOffer w r rest (phaseRead s)))
      (Machine.phaseAdvance t.tx.phase (logOffer w r rest (phaseRead t))) := by
  have hr := h.sender hm
  have hlog : sameOutside (logOffer w r rest s) (logOffer w r rest t) := by
    obtain ⟨hmode, hok, hlen, hcause, hpay, hout, henv⟩ := h.outside
    exact ⟨hmode, hok, hlen, hcause, hpay, hout, by rw [logOffer_env, logOffer_env, henv]⟩
  have hregs : ∀ tx tx', SameSender tx tx' → Alike { logOffer w r rest s with tx := tx }
      { logOffer w r rest t with tx := tx' } := fun tx tx' htx => .of_send hlog hm htx
  obtain ⟨-, -, -, -, hpay, -, -⟩ := h.outside
  rw [phaseRead, phaseRead, ← hr.phase]
  cases hp : s.tx.phase with
  | stx =>
    simp only [Machine.phaseAdvance, afterStx_eq]
    refine hregs _ _ ⟨?_, hr.idx, hr.len, hr.acc, fun hlo => ?_⟩
    · rw [logOffer_tx, logOffer_tx, hr.len]
    · split at hlo <;> cases hlo
  | hi =>
    have hread : s.pay.read s.tx.idx.toNat = t.pay.read t.tx.idx.toNat := by rw [hr.idx, hpay]
    exact hregs _ _ ⟨rfl, hr.idx, hr.len, congrArg₂ crcByte hr.acc hread, fun _ => hread⟩
  | lo =>
    simp only [Machine.phaseAdvance]
    by_cases hlt : s.tx.idx.toNat + 1 < s.tx.len.toNat
    · have hlt' : t.tx.idx.toNat + 1 < t.tx.len.toNat := by rwa [← hr.idx, ← hr.len]
      rw [afterLo_of_lt (s := logOffer w r rest s) hlt, afterLo_of_lt (s := logOffer w r rest t) hlt']
      exact hregs _ _ ⟨rfl, congrArg (fun b : Byte => BitVec.ofNat 8 (b.toNat + 1)) hr.idx, hr.len, hr.acc,
        fun hlo => by cases hlo⟩
    · have hlt' : ¬ t.tx.idx.toNat + 1 < t.tx.len.toNat := by rwa [← hr.idx, ← hr.len]
      rw [afterLo_of_not_lt (s := logOffer w r rest s) hlt, afterLo_of_not_lt (s := logOffer w r rest t) hlt']
      exact hregs _ _ ⟨rfl, hr.idx, hr.len, hr.acc, fun hlo => by cases hlo⟩
  | etx => exact hregs _ _ ⟨rfl, hr.idx, hr.len, hr.acc, fun hlo => by cases hlo⟩
  | chi => exact hregs _ _ ⟨rfl, hr.idx, hr.len, hr.acc, fun hlo => by cases hlo⟩
  | clo => exact Alike.complete hlog 0

theorem Alike.step_send {s t : State} (h : Alike s t) (hm : s.mode = .send) : AlikeOutcome (step s) (step t) := by
  obtain ⟨hmode, hok, hlen, hcause, hpay, hout, henv⟩ := h.outside
  have hm' : t.mode = .send := hmode ▸ hm
  cases hr : s.env.txAnswers with
  | nil =>
    rw [step_send_eq_offer hm, step_send_eq_offer hm', offer_stuck (by rw [phaseRead_env, hr]),
      offer_stuck (by rw [phaseRead_env, ← henv, hr])]
    rfl
  | cons r rest =>
    have hr' : t.env.txAnswers = r :: rest := by rw [← henv, hr]
    by_cases h1 : r = 1
    · subst h1
      rw [step_send_one hm hr, step_send_one hm' hr', ← h.phaseByte_eq hm]
      exact h.phaseAdvance hm _ _ _
    · rw [step_send_other hm hr h1, step_send_other hm' hr' h1, ← h.phaseByte_eq hm]
      obtain ⟨tx, hread, -⟩ := phaseRead_eq s
      obtain ⟨tx', hread', -⟩ := phaseRead_eq t
      refine Alike.raise ?_ .transport
      rw [hread, hread']
      exact ⟨hmode, hok, hlen, hcause, hpay, hout, by rw [logOffer_env, logOffer_env, henv]⟩

/-! ## The receiver -/

theorem lowNibble_of_etx {s : State} (n : Nibble) (h : s.rx.haveEtx = true) :
    lowNibble n s = checkSum (joinNibble n s) := if_pos h

theorem lowNibble_of_lt {s : State} (n : Nibble) (he : s.rx.haveEtx = false) (hlt : s.rx.pos < s.rx.maxlen) :
    lowNibble n s = appendByte (joinNibble n s) :=
  (if_neg (Bool.eq_false_iff.mp he)).trans (if_pos hlt)

theorem lowNibble_of_not_lt {s : State} (n : Nibble) (he : s.rx.haveEtx = false) (hlt : ¬ s.rx.pos < s.rx.maxlen) :
    lowNibble n s = raise .overflow (joinNibble n s) :=
  (if_neg (Bool.eq_false_iff.mp he)).trans (if_neg hlt)

section Receiver

variable {s t : State} (h : Alike s t) (hm : s.mode = .recv) (hs : s.rx.haveStx = true)
include h hm hs

theorem Alike.lowNibble (n : Nibble) (hp : s.rx.phase = .lo) :
    Alike (Machine.lowNibble n s) (Machine.lowNibble n t) := by
  have hr := h.receiver hm
  have hjoin : sameOutside (joinNibble n s) (joinNibble n t) := h.outside
  have hcur : (joinNibble n s).rx.cur = (joinNibble n t).rx.cur := by
    rw [joinNibble_rx, joinNibble_rx, hr.cur hs hp]
  cases he : s.rx.haveEtx with
  | true =>
    have he' : t.rx.haveEtx = true := hr.haveEtx hs ▸ he
    have hacc : (joinNibble n s).rx.acc = (joinNibble n t).rx.acc := hr.acc hs
    have hpos : (joinNibble n s).rx.pos = (joinNibble n t).rx.pos := hr.pos hs
    rw [lowNibble_of_etx n he, lowNibble_of_etx n he', checkSum, checkSum, ← hcur, ← hacc, ← hpos]
    split
    · exact Alike.complete hjoin _
    · exact Alike.raise hjoin .checksum
  | false =>
    have he' : t.rx.haveEtx = false := hr.haveEtx hs ▸ he
    by_cases hlt : s.rx.pos < s.rx.maxlen
    · have hlt' : t.rx.pos < t.rx.maxlen := by rwa [← hr.pos hs, ← hr.maxlen]
      rw [lowNibble_of_lt n he hlt, lowNibble_of_lt n he' hlt']
      obtain ⟨hmode, hok, hlen, hcause, hpay, hout, henv⟩ := hjoin
      have hpos : (joinNibble n s).rx.pos = (joinNibble n t).rx.pos := hr.pos hs
      refine .of_recv ⟨hmode, hok, hlen, hcause, hpay, ?_, henv⟩ hm
        ⟨hr.haveStx, hr.t0, hr.maxlen, hr.timeout, hr.haveEtx, fun _ => rfl, fun _ => ?_, fun _ => ?_,
          fun _ hlo => by cases hlo⟩
      · rw [appendByte_out, appendByte_out, hout, hpos, hcur]
      · rw [appendByte_rx, appendByte_rx, hpos]
      · rw [appendByte_rx, appendByte_rx, hcur]
        exact congrArg (crcByte · _) (hr.acc hs)
    · have hlt' : ¬ t.rx.pos < t.rx.maxlen := by rwa [← hr.pos hs, ← hr.maxlen]
      rw [lowNibble_of_not_lt n he hlt, lowNibble_of_not_lt n he' hlt']
      exact Alike.raise hjoin .overflow

theorem Alike.receiveByte_of_stx {w : Byte} (now : Time) (hw : w ≠ Config.stx) :
    Alike (Machine.receiveByte w now s) (Machine.receiveByte w now t) := by
  have hr := h.receiver hm
  have hs' : t.rx.haveStx = true := hr.haveStx ▸ hs
  cases hc : classify w with
  | stx => exact absurd (classify_eq_stx.mp hc) hw
  | etx =>
    obtain rfl := classify_eq_etx.mp hc
    rw [receiveByte_etx now hs, receiveByte_etx now hs']
    exact .of_recv h.outside hm
      ⟨hr.haveStx, hr.t0, hr.maxlen, hr.timeout, fun _ => rfl, hr.phase, hr.pos, hr.acc, hr.cur⟩
  | bad =>
    rw [receiveByte_bad now hc hs, receiveByte_bad now hc hs']
    exact Alike.raise h.outside .corrupt
  | nib n =>
    obtain rfl := classify_eq_nib.mp hc
    cases hp : s.rx.phase with
    | hi =>
      rw [receiveByte_hi n now hs hp, receiveByte_hi n now hs' (hr.phase hs ▸ hp)]
      exact .of_recv h.outside hm
        ⟨hr.haveStx, hr.t0, hr.maxlen, hr.timeout, hr.haveEtx, fun _ => rfl, hr.pos, hr.acc, fun _ _ => rfl⟩
    | lo =>
      rw [receiveByte_lo n now hs hp, receiveByte_lo n now hs' (hr.phase hs ▸ hp)]
      exact h.lowNibble hm hs n hp

end Receiver

theorem Alike.receiveByte {s t : State} (h : Alike s t) (hm : s.mode = .recv) (w : Byte) (now : Time) :
    Alike (Machine.receiveByte w now s) (Machine.receiveByte w now t) := by
  have hr := h.receiver hm
  by_cases hw : w = Config.stx
  · subst hw
    rw [receiveByte_stx, receiveByte_stx]
    exact .of_recv h.outside hm
      ⟨rfl, rfl, hr.maxlen, hr.timeout, fun _ => rfl, fun _ => rfl, fun _ => rfl, fun _ => rfl, fun _ hlo => by cases hlo⟩
  · cases hs : s.rx.haveStx with
    | true => exact h.receiveByte_of_stx hm hs now hw
    | false => rwa [receiveByte_idle now hw hs, receiveByte_idle now hw (hr.haveStx ▸ hs)]

theorem Alike.receiveNothing {s t : State} (h : Alike s t) (hm : s.mode = .recv) (now : Time) :
    Alike (Machine.receiveNothing now s) (Machine.receiveNothing now t) := by
  have hr := h.receiver hm
  rw [Machine.receiveNothing, Machine.receiveNothing, ← hr.t0, ← hr.timeout]
  split
  · exact Alike.raise h.outside .timeout
  · exact h

theorem step_recv_stuck {s : State} {f : Fault} (hm : s.mode = .recv) (h : poll s = .stuck f) : step s = .fault f := by
  rw [step_recv hm, h]

theorem Alike.step_recv {s t : State} (h : Alike s t) (hm : s.mode = .recv) : AlikeOutcome (step s) (step t) := by
  obtain ⟨hmode, hok, hlen, hcause, hpay, hout, henv⟩ := h.outside
  have hm' : t.mode = .recv := hmode ▸ hm
  have hpolled : ∀ e e' : Env, e = e' → Alike { s with env := e } { t with env := e' } := fun e e' he =>
    .of_recv ⟨hmode, hok, hlen, hcause, hpay, hout, he⟩ hm (h.receiver hm)
  have hnow : ∀ d, BitVec.ofNat timeW (s.env.clock + d) = BitVec.ofNat timeW (t.env.clock + d) := by
    intro d
    rw [henv]
  obtain ⟨hclock, havail, hread⟩ := poll_stuck (s := s)
  obtain ⟨hclock', havail', hread'⟩ := poll_stuck (s := t)
  rw [← henv] at hclock' havail' hread'
  cases ht : s.env.ticks with
  | nil =>
    rw [step_recv_stuck hm (hclock ht), step_recv_stuck hm' (hclock' ht)]
    rfl
  | cons d ts =>
    have htick : s.env.ticks ≠ [] := by rw [ht]; exact List.cons_ne_nil d ts
    have ht' : t.env.ticks = d :: ts := henv ▸ ht
    cases hc : s.env.rxAvail with
    | nil =>
      rw [step_recv_stuck hm (havail htick hc), step_recv_stuck hm' (havail' htick hc)]
      rfl
    | cons c cs =>
      have hc' : t.env.rxAvail = c :: cs := henv ▸ hc
      cases c with
      | zero =>
        have halike : Alike (polledNothing d ts cs s) (polledNothing d ts cs t) := hpolled _ _ (by rw [henv])
        have htime : (polledNothing d ts cs t).now = (polledNothing d ts cs s).now := (hnow d).symm
        rw [step_recv_silent hm ht hc, step_recv_silent hm' ht' hc', htime]
        exact halike.receiveNothing hm _
      | succ c =>
        have h0 : 0 < c + 1 := Nat.succ_pos c
        cases hw : s.env.rxBytes with
        | nil =>
          rw [step_recv_stuck hm (hread _ _ htick hc h0 hw), step_recv_stuck hm' (hread' _ _ htick hc h0 hw)]
          rfl
        | cons w ws =>
          have halike : Alike (polledByte d ts cs ws s) (polledByte d ts cs ws t) := hpolled _ _ (by rw [henv])
          have htime : (polledByte d ts cs ws t).now = (polledByte d ts cs ws s).now := (hnow d).symm
          rw [step_recv_byte hm ht hc h0 hw, step_recv_byte hm' ht' hc' h0 (henv ▸ hw), htime]
          exact halike.receiveByte hm _ _

/-! ## The idle block -/

theorem Alike.step_idle {s t : State} (h : sameOutside s t) (hm : s.mode = .idle) : AlikeOutcome (step s) (step t) := by
  have houtside := h
  obtain ⟨hmode, hok, hlen, hcause, hpay, hout, henv⟩ := h
  have hm' : t.mode = .idle := hmode ▸ hm
  have htaken : ∀ rest, sameOutside (taken rest s) (taken rest t) := fun rest =>
    ⟨hmode, hok, hlen, hcause, hpay, hout, by rw [taken, taken, henv]⟩
  cases hh : s.env.host with
  | nil =>
    rw [step_idle_nothing hm hh, step_idle_nothing hm' (henv ▸ hh)]
    exact .of_idle houtside hm
  | cons act rest =>
    have hh' : t.env.host = act :: rest := henv ▸ hh
    obtain ⟨tmode, tok, tlen, tcause, tpay, tout, tenv⟩ := htaken rest
    cases act with
    | writePay a v =>
      rw [step_idle_writePay hm hh, step_idle_writePay hm' hh', ← hpay]
      exact .of_idle ⟨tmode, tok, tlen, tcause, rfl, tout, tenv⟩ hm
    | writeOut a v =>
      rw [step_idle_writeOut hm hh, step_idle_writeOut hm' hh', ← hout]
      exact .of_idle ⟨tmode, tok, tlen, tcause, tpay, rfl, tenv⟩ hm
    | reset =>
      rw [step_idle_reset hm hh, step_idle_reset hm' hh']
      exact .of_idle ⟨rfl, rfl, rfl, rfl, tpay, tout, tenv⟩ rfl
    | command op len timeout =>
      obtain rfl | rfl := op_cases op
      · rw [step_idle_send hm hh, step_idle_send hm' hh']
        exact .of_send ⟨rfl, tok, tlen, tcause, tpay, tout, tenv⟩ rfl ⟨rfl, rfl, rfl, rfl, fun hlo => by cases hlo⟩
      · cases ht : s.env.ticks with
        | nil =>
          rw [step_idle_recv_stuck hm hh ht, step_idle_recv_stuck hm' hh' (henv ▸ ht)]
          rfl
        | cons d ts =>
          rw [step_idle_recv hm hh ht, step_idle_recv hm' hh' (henv ▸ ht), ← henv]
          exact .of_recv ⟨rfl, hok, hlen, hcause, hpay, hout, rfl⟩ rfl (.of_idle rfl rfl rfl rfl rfl)

/-! ## Every step and every run -/

theorem Alike.step {s t : State} (h : Alike s t) : AlikeOutcome (Machine.step s) (Machine.step t) := by
  cases hm : s.mode with
  | idle => exact Alike.step_idle h.outside hm
  | send => exact h.step_send hm
  | recv => exact h.step_recv hm

theorem Alike.run {s t : State} (k : Nat) (h : Alike s t) : sameOutcome (Claims.run k s) (Claims.run k t) := by
  induction k generalizing s t with
  | zero => exact h.outside
  | succ k ih =>
    have hstep := h.step
    rw [Claims.run, Claims.run]
    revert hstep
    cases Machine.step s <;> cases Machine.step t <;> intro hstep
    case next.next => exact ih hstep
    case fault.fault => exact hstep
    case refused.refused => exact hstep
    all_goals exact hstep.elim

/-- Settles O11: idle states that agree outside are alike, and a run of alike states shows no difference. -/
theorem unspecifiedRegistersDoNotMatter : Obligations.UnspecifiedRegistersDoNotMatter := by
  intro s t k hm h
  exact (Alike.of_idle h hm).run k

end Sys2Proof.Machine
end

section
/-!
The wire-byte rows, PAIR and FRAME as the receiver's reading of their bytes (30_encoding.md R90 to R97, log entry 9),
and the reading of several bytes one after the other. The statements O47 to O50 and O57.
-/

namespace Sys2Proof.Machine

open Claims

/-! ## Rows as bytes fed to the receiver -/

theorem exec_nibInstr (n : Nibble) (s : State) : exec (nibInstr n) s = .next (feed [encNib n] s) := by
  obtain rfl | rfl | rfl | rfl | rfl | rfl | rfl | rfl | rfl | rfl | rfl | rfl | rfl | rfl | rfl | rfl := nibble_cases n
    <;> rfl

theorem exec_bad (w : Byte) (s : State) : exec (.bad w) s = .next (feed [w] s) := rfl

/-- The row of a wire byte feeds that byte, in every mode. -/
theorem exec_decodeWire_eq_feed (w : Byte) (s : State) : exec (decodeWire w) s = .next (feed [w] s) := by
  cases hc : classify w with
  | stx => rw [decodeWire, hc, classify_eq_stx.mp hc]; rfl
  | etx => rw [decodeWire, hc, classify_eq_etx.mp hc]; rfl
  | nib n => rw [decodeWire, hc, classify_eq_nib.mp hc]; exact exec_nibInstr n s
  | bad => rw [decodeWire, hc]; exact exec_bad w s

theorem exec_pair (b : Byte) (s : State) : exec (.pair b) s = .next (feed (pairBytes b) s) := rfl

theorem exec_frame_of_le {p : List Byte} (s : State) (h : p.length ≤ Config.maxLen) :
    exec (.frame p) s = .next (feed (frameBytes p) s) :=
  if_pos h

/-- Beyond 255 bytes the checksum byte is a free value (log entry 19). -/
theorem exec_frame_of_lt {p : List Byte} (s : State) (h : Config.maxLen < p.length) :
    ∃ c, exec (.frame p) s = .next (drew 1 (feed (frameWith c p) s)) :=
  ⟨_, if_neg (Nat.not_le.mpr h)⟩

theorem feed_one {s : State} (w : Byte) (hm : s.mode = .recv) : feed [w] s = receiveByte w s.now s := by
  rw [feed_recv hm, feed_nil]

/-- The sixteen rows of R93 with their nibbles. -/
theorem eq_nibInstr_of_mem {i : Instr} {n : Nibble}
    (h : (i, n) ∈ [(Instr.nib0, 0x0#4), (.nib1, 0x1#4), (.nib2, 0x2#4), (.nib3, 0x3#4), (.nib4, 0x4#4), (.nib5, 0x5#4),
      (.nib6, 0x6#4), (.nib7, 0x7#4), (.nib8, 0x8#4), (.nib9, 0x9#4), (.nibA, 0xA#4), (.nibB, 0xB#4),
      (.nibC, 0xC#4), (.nibD, 0xD#4), (.nibE, 0xE#4), (.nibF, 0xF#4)]) : i = nibInstr n := by
  have hall : ∀ x ∈ [(Instr.nib0, 0x0#4), (.nib1, 0x1#4), (.nib2, 0x2#4), (.nib3, 0x3#4), (.nib4, 0x4#4),
      (.nib5, 0x5#4), (.nib6, 0x6#4), (.nib7, 0x7#4), (.nib8, 0x8#4), (.nib9, 0x9#4), (.nibA, 0xA#4), (.nibB, 0xB#4),
      (.nibC, 0xC#4), (.nibD, 0xD#4), (.nibE, 0xE#4), (.nibF, 0xF#4)], x.1 = nibInstr x.2 := by decide
  exact hall _ h

/-! ## Several bytes -/

/-- The receiver's reading of several bytes at one clock sample, whatever the mode. -/
def receiveAll (now : Time) (ws : List Byte) (s : State) : State :=
  ws.foldl (fun u w => receiveByte w now u) s

@[simp] theorem receiveAll_nil (now : Time) (s : State) : receiveAll now [] s = s := rfl

@[simp] theorem receiveAll_cons (now : Time) (w : Byte) (ws : List Byte) (s : State) :
    receiveAll now (w :: ws) s = receiveAll now ws (receiveByte w now s) := rfl

@[simp] theorem receiveAll_append (now : Time) (ws vs : List Byte) (s : State) :
    receiveAll now (ws ++ vs) s = receiveAll now vs (receiveAll now ws s) :=
  List.foldl_append

/-! ### What reading leaves alone -/

/-- What no byte read can change. -/
structure ReadFrame (s t : State) : Prop where
  env : t.env = s.env
  tx : t.tx = s.tx
  pay : t.pay = s.pay
  unitOut : t.unitOut = s.unitOut
  freeDraws : t.freeDraws = s.freeDraws
  maxlen : t.rx.maxlen = s.rx.maxlen
  timeout : t.rx.timeout = s.rx.timeout

theorem ReadFrame.trans {s t u : State} (h : ReadFrame s t) (h' : ReadFrame t u) : ReadFrame s u :=
  ⟨h'.env.trans h.env, h'.tx.trans h.tx, h'.pay.trans h.pay, h'.unitOut.trans h.unitOut,
    h'.freeDraws.trans h.freeDraws, h'.maxlen.trans h.maxlen, h'.timeout.trans h.timeout⟩

theorem receiveByte_env (w : Byte) (now : Time) (s : State) : (receiveByte w now s).env = s.env := by
  obtain ⟨-, h⟩ | ⟨-, -, h⟩ | ⟨-, -, h⟩ | ⟨-, -, h⟩ | ⟨n, -, -, -, h⟩ | ⟨n, -, -, -, h⟩ := receiveByte_cases w now s <;>
    rw [h]
  case inr.inr.inr.inr.inr =>
    obtain ⟨-, -, henv, -⟩ := lowNibble_frame n s
    exact henv
  all_goals rfl

theorem receiveByte_readFrame (w : Byte) (now : Time) (s : State) : ReadFrame s (receiveByte w now s) := by
  have henv := receiveByte_env w now s
  obtain ⟨u, hu, hends⟩ := receiveByte_ends w now s
  generalize receiveByte w now s = t at henv hends
  obtain rfl | ⟨-, rfl⟩ | ⟨c, -, rfl⟩ := hends <;>
    exact ⟨henv, hu.tx, hu.pay, hu.unitOut, hu.freeDraws, hu.maxlen, hu.timeout⟩

theorem receiveAll_readFrame (now : Time) (ws : List Byte) (s : State) : ReadFrame s (receiveAll now ws s) := by
  induction ws generalizing s with
  | nil => exact ⟨rfl, rfl, rfl, rfl, rfl, rfl, rfl⟩
  | cons w ws ih => exact (receiveByte_readFrame w now s).trans (ih _)

/-- No byte read starts a command: a block that receives afterwards has received all along. -/
theorem mode_recv_of_receiveByte {w : Byte} {now : Time} {s : State} (h : (receiveByte w now s).mode = .recv) :
    s.mode = .recv := by
  obtain ⟨u, hu, hends⟩ := receiveByte_ends w now s
  generalize receiveByte w now s = t at h hends
  obtain rfl | ⟨-, rfl⟩ | ⟨c, -, rfl⟩ := hends
  · exact hu.mode.symm.trans h
  · cases h
  · cases h

theorem mode_recv_of_receiveAll {now : Time} {ws : List Byte} {s : State} (h : (receiveAll now ws s).mode = .recv) :
    s.mode = .recv := by
  induction ws generalizing s with
  | nil => exact h
  | cons w ws ih => exact mode_recv_of_receiveByte (ih h)

/-- A start marker once read stays read (R205). -/
theorem receiveByte_haveStx {w : Byte} {now : Time} {s : State} (h : s.rx.haveStx = true) :
    (receiveByte w now s).rx.haveStx = true := by
  obtain ⟨-, heq⟩ | ⟨-, -, heq⟩ | ⟨-, -, heq⟩ | ⟨-, -, heq⟩ | ⟨n, -, -, -, heq⟩ | ⟨n, -, -, -, heq⟩ :=
    receiveByte_cases w now s <;> rw [heq]
  case inl => rfl
  case inr.inr.inr.inr.inr =>
    obtain ⟨-, hlow⟩ | ⟨-, -, hlow⟩ | ⟨-, -, hlow⟩ := lowNibble_cases n s <;> rw [hlow]
    · obtain ⟨hrx, -⟩ := checkSum_frame (joinNibble n s)
      rw [hrx]
      exact h
    all_goals exact h
  all_goals exact h

theorem receiveAll_haveStx {now : Time} {ws : List Byte} {s : State} (h : s.rx.haveStx = true) :
    (receiveAll now ws s).rx.haveStx = true := by
  induction ws generalizing s with
  | nil => exact h
  | cons w ws ih => exact ih (receiveByte_haveStx h)

/-- In Idle noise without a start marker changes nothing (R202). -/
theorem receiveAll_noise {now : Time} {ws : List Byte} {s : State} (hs : s.rx.haveStx = false)
    (hws : ∀ w ∈ ws, w ≠ Config.stx) : receiveAll now ws s = s := by
  induction ws with
  | nil => rfl
  | cons w ws ih =>
    rw [receiveAll_cons, receiveByte_idle now (hws w List.mem_cons_self) hs]
    exact ih fun v hv => hws v (List.mem_cons_of_mem w hv)

/-! ### Fed at one sample -/

theorem feed_append {ws rest : List Byte} {s : State} (h : (receiveAll s.now ws s).mode = .recv) :
    feed (ws ++ rest) s = feed rest (receiveAll s.now ws s) := by
  generalize hn : s.now = now at h ⊢
  induction ws generalizing s with
  | nil => rfl
  | cons w ws ih =>
    have hnow : (receiveByte w now s).now = now := by rw [State.now, receiveByte_env, ← hn, State.now]
    rw [List.cons_append, feed_recv (mode_recv_of_receiveAll h), hn, ih hnow h]
    rfl

/-- Bytes whose last one ends the command: what follows them stays in the transport (R213). -/
theorem feed_ending {ws rest : List Byte} {s : State} (hrun : (receiveAll s.now ws.dropLast s).mode = .recv)
    (hend : (receiveAll s.now ws s).mode = .idle) :
    feed (ws ++ rest) s =
      { receiveAll s.now ws s with env := { s.env with rxBytes := rest ++ s.env.rxBytes } } := by
  have hne : ws ≠ [] := by
    rintro rfl
    rw [List.dropLast_nil, hend] at hrun
    cases hrun
  have hnow : (receiveAll s.now ws.dropLast s).now = s.now := by
    rw [State.now, (receiveAll_readFrame _ _ _).env, State.now]
  have hlast : receiveByte (ws.getLast hne) s.now (receiveAll s.now ws.dropLast s) = receiveAll s.now ws s := by
    conv => rhs; rw [← List.dropLast_append_getLast hne, receiveAll_append]
    rfl
  have henv := (receiveAll_readFrame s.now ws s).env
  calc feed (ws ++ rest) s = feed (ws.dropLast ++ (ws.getLast hne :: rest)) s := by
        rw [List.append_cons, List.dropLast_append_getLast]
    _ = feed rest (receiveAll s.now ws s) := by rw [feed_append hrun, feed_recv hrun, hnow, hlast]
    _ = _ := by rw [feed_other (by rw [hend]; decide), henv]

/-! ### Read one a step -/

/-- A state at another clock and another environment: what the environment's part of the steps leaves. -/
def atClock (t0 : Time) (e : Env) (s : State) : State := { s with env := e, rx := { s.rx with t0 := t0 } }

theorem lowNibble_atClock (n : Nibble) (t0 : Time) (e : Env) (s : State) :
    lowNibble n (atClock t0 e s) = atClock t0 e (lowNibble n s) := by
  obtain ⟨he, h⟩ | ⟨he, hlt, h⟩ | ⟨he, hlt, h⟩ := lowNibble_cases n s <;> rw [h]
  · rw [lowNibble_of_etx (s := atClock t0 e s) n he, checkSum, checkSum, apply_ite (atClock t0 e)]
    rfl
  · exact lowNibble_of_lt (s := atClock t0 e s) n he hlt
  · exact lowNibble_of_not_lt (s := atClock t0 e s) n he hlt

/-- The clock and the environment matter to a byte read only through the deadline that a start marker sets (R205). -/
theorem receiveByte_atClock (w : Byte) (now now' t0 : Time) (e : Env) (s : State) :
    receiveByte w now' (atClock t0 e s) = atClock (if w = Config.stx then now' else t0) e (receiveByte w now s) := by
  by_cases hw : w = Config.stx
  · subst hw
    rw [if_pos rfl, receiveByte_stx, receiveByte_stx]
    rfl
  · rw [if_neg hw]
    cases hs : s.rx.haveStx with
    | false => rw [receiveByte_idle now hw hs, receiveByte_idle (s := atClock t0 e s) now' hw hs]
    | true =>
      cases hc : classify w with
      | stx => exact absurd (classify_eq_stx.mp hc) hw
      | etx =>
        obtain rfl := classify_eq_etx.mp hc
        rw [receiveByte_etx now hs, receiveByte_etx (s := atClock t0 e s) now' hs]
        rfl
      | bad =>
        rw [receiveByte_bad now hc hs, receiveByte_bad (s := atClock t0 e s) now' hc hs]
        rfl
      | nib n =>
        obtain rfl := classify_eq_nib.mp hc
        cases hp : s.rx.phase with
        | hi =>
          rw [receiveByte_hi n now hs hp, receiveByte_hi (s := atClock t0 e s) n now' hs hp]
          rfl
        | lo =>
          rw [receiveByte_lo n now hs hp, receiveByte_lo (s := atClock t0 e s) n now' hs hp]
          exact lowNibble_atClock n t0 e s

theorem readySteps_succ {n : Nat} {ticks avail : List Nat} (h : readySteps (n + 1) ticks avail) :
    ∃ d ts c cs, ticks = d :: ts ∧ avail = c :: cs ∧ 0 < c ∧ readySteps n ts cs := by
  obtain ⟨hticks, havail, hpos⟩ := h
  cases ticks with
  | nil => simp at hticks
  | cons d ts =>
    cases avail with
    | nil => simp at havail
    | cons c cs =>
      rw [List.take_succ_cons] at hpos
      exact ⟨d, ts, c, cs, rfl, rfl, hpos c List.mem_cons_self, Nat.le_of_succ_le_succ hticks,
        Nat.le_of_succ_le_succ havail, fun x hx => hpos x (List.mem_cons_of_mem c hx)⟩

/-- A run whose steps all find a byte reads the bytes in order, as long as none but the last ends the command. -/
theorem run_receiveAll (now : Time) {ws rest : List Byte} {t0 : Time} {e : Env} {s : State}
    (hbytes : e.rxBytes = ws ++ rest) (hready : readySteps ws.length e.ticks e.rxAvail)
    (hrun : ws ≠ [] → (receiveAll now ws.dropLast s).mode = .recv) :
    ∃ t0' e', Claims.run ws.length (atClock t0 e s) = .next (atClock t0' e' (receiveAll now ws s)) ∧
      e'.rxBytes = rest ∧ e'.host = e.host ∧ (Config.stx ∉ ws → t0' = t0) := by
  induction ws generalizing t0 e s with
  | nil => exact ⟨t0, e, rfl, hbytes, rfl, fun _ => rfl⟩
  | cons w ws ih =>
    obtain ⟨d, ts, c, cs, ht, hc, h0, hready'⟩ := readySteps_succ hready
    have hm : s.mode = .recv := mode_recv_of_receiveAll (hrun (List.cons_ne_nil w ws))
    rw [List.cons_append] at hbytes
    have hstep : step (atClock t0 e s) = _ := step_recv_byte (s := atClock t0 e s) hm ht hc h0 hbytes
    obtain ⟨e1, hpolled, hbytes1, hready1, hhost1⟩ : ∃ e1,
        polledByte d ts cs (ws ++ rest) (atClock t0 e s) = atClock t0 e1 s ∧ e1.rxBytes = ws ++ rest ∧
          readySteps ws.length e1.ticks e1.rxAvail ∧ e1.host = e.host := ⟨_, rfl, rfl, hready', rfl⟩
    rw [hpolled, receiveByte_atClock w now] at hstep
    have hrun' : ws ≠ [] → (receiveAll now ws.dropLast (receiveByte w now s)).mode = .recv := by
      intro hne
      have h := hrun (List.cons_ne_nil w ws)
      rwa [List.dropLast_cons_of_ne_nil hne] at h
    obtain ⟨t0', e', hrest, hbytes', hhost, ht0⟩ := ih hbytes1 hready1 hrun'
    refine ⟨t0', e', ?_, hbytes', hhost.trans hhost1, fun hstx => ?_⟩
    · rw [List.length_cons, run_next _ hstep, hrest, receiveAll_cons]
    rw [List.mem_cons, not_or] at hstx
    obtain ⟨hw, hws⟩ := hstx
    rw [ht0 hws, if_neg (Ne.symm hw)]

/-! ## The statements -/

/-- Settles O47: each row feeds its byte, which the receiver takes as the state says. -/
theorem markersAndBadReceived : Obligations.MarkersAndBadReceived := by
  intro s hm
  have hne : Config.etx ≠ Config.stx := by decide
  have hstx : exec .stx s = .next (receiveByte Config.stx s.now s) := congrArg _ (feed_one _ hm)
  have hetx : exec .etx s = .next (receiveByte Config.etx s.now s) := congrArg _ (feed_one _ hm)
  refine ⟨?_, fun hs => ?_, fun hs => ?_, fun w hw => ⟨fun hs => ?_, fun hs => ?_⟩⟩
  · rw [hstx, receiveByte_stx]
    rfl
  · rw [hetx, receiveByte_idle _ hne hs]
  · rw [hetx, receiveByte_etx _ hs, endPayload]
  · obtain ⟨hw', -⟩ := classify_eq_bad.mp hw
    rw [exec_bad, feed_one w hm, receiveByte_idle _ hw' hs]
  · rw [exec_bad, feed_one w hm, receiveByte_bad _ hw hs, raise_eq_failed]

/-- Settles O48: the row of a nibble feeds its code. -/
theorem nibbleCodesReceived : Obligations.NibbleCodesReceived := by
  intro s i n hm hi
  obtain rfl := eq_nibInstr_of_mem hi
  have hexec : exec (nibInstr n) s = .next (receiveByte (encNib n) s.now s) := by
    rw [exec_nibInstr, feed_one _ hm]
  rw [hexec]
  refine ⟨⟨_, rfl⟩, fun hs => ?_, fun hs hp => ?_, fun hs hp => ?_⟩
  · rw [receiveByte_idle _ (encNib_ne_stx n) hs]
  · rw [receiveByte_hi n _ hs hp, zero_append_nibble, holdNibble]
  · rw [receiveByte_lo n _ hs hp, exec_rxNiblo_of_lo hm hs n hp]

/-- Settles O49: a well-formed instruction is what its pattern decodes to, so its row feeds the pattern's bytes, which a
block that does not receive leaves in the transport. -/
theorem unreadBytesStay : Obligations.UnreadBytesStay := by
  rintro s i ws hm hwf (⟨w, henc, rfl⟩ | ⟨w1, w2, henc, rfl⟩ | henc)
  · obtain rfl := Except.ok.inj (decodeInvertsEncode i _ hwf henc)
    rw [exec_decodeWire_eq_feed, feed_other hm]
  · obtain ⟨b, hb, rfl⟩ := decode_pair_ok (decodeInvertsEncode i _ hwf henc)
    rw [exec_pair, pairBytes_of_decPair hb, feed_other hm]
  · obtain ⟨p, rfl, hlen, rfl⟩ := of_decodeFrame (decodeInvertsEncode i _ hwf henc)
    rw [exec_frame_of_le s hlen, feed_other hm]

/-- Settles O57: noise is read one byte a step and changes nothing. -/
theorem noiseNeverEndsReceive : Obligations.NoiseNeverEndsReceive := by
  intro s k hm hs hk hnoise hready
  have hlen : (s.env.rxBytes.take k).length = k := by rw [List.length_take, Nat.min_eq_left hk]
  have hstx : Config.stx ∉ s.env.rxBytes.take k := fun hmem => hnoise _ hmem rfl
  have hprefix : ∀ w ∈ (s.env.rxBytes.take k).dropLast, w ≠ Config.stx := fun w hw =>
    hnoise w (List.dropLast_subset _ hw)
  obtain ⟨t0, e, hrun, hbytes, -, ht0⟩ := run_receiveAll s.now (t0 := s.rx.t0) (e := s.env) (s := s)
    (List.take_append_drop k _).symm (by rwa [hlen]) fun _ => by rw [receiveAll_noise hs hprefix, hm]
  rw [hlen, receiveAll_noise hs hnoise] at hrun
  exact ⟨_, hrun, hm, by rw [atClock, ht0 hstx], rfl, hbytes⟩

end Sys2Proof.Machine
end

section
/-!
Whole receptions (43_frame_receiver.md section 5): the state after a start marker and some whole pairs, and from there a
frame that fits, one that does not, one with a flipped bit and one with its end marker off the pair boundary. The
statements O50 to O55 and O60.
-/

namespace Sys2Proof.Machine

open Claims

/-! ## One pair -/

/-- The high code is held and the low code joined to it: the byte stands in `rx.cur` (R207, R212). -/
def joined (b : Byte) (s : State) : State := { s with rx := { s.rx with cur := b, phase := .hi } }

theorem joinNibble_holdNibble (b : Byte) (s : State) : joinNibble (lo4 b) (holdNibble (hi4 b) s) = joined b s := by
  have hcur : ((hi4 b).setWidth 8 <<< 4) ||| (lo4 b).setWidth 8 = b := by rw [join_held, joinNibbles_hi4_lo4]
  rw [joinNibble, holdNibble, joined, hcur]

theorem receiveAll_pair {s : State} (now : Time) (b : Byte) (hs : s.rx.haveStx = true) (hp : s.rx.phase = .hi) :
    receiveAll now (pairBytes b) s = lowNibble (lo4 b) (holdNibble (hi4 b) s) := by
  have hlo : receiveByte (encNib (lo4 b)) now (holdNibble (hi4 b) s) = _ :=
    receiveByte_lo (s := holdNibble (hi4 b) s) (lo4 b) now hs rfl
  rw [pairBytes, encByte, receiveAll_cons, receiveByte_hi _ now hs hp, receiveAll_cons, hlo, receiveAll_nil]

theorem receiveAll_pair_of_lt {s : State} (now : Time) (b : Byte) (hs : s.rx.haveStx = true)
    (he : s.rx.haveEtx = false) (hp : s.rx.phase = .hi) (hlt : s.rx.pos.toNat < s.rx.maxlen.toNat) :
    receiveAll now (pairBytes b) s = appendByte (joined b s) := by
  rw [receiveAll_pair now b hs hp, lowNibble_of_lt (s := holdNibble (hi4 b) s) _ he (BitVec.lt_def.mpr hlt),
    joinNibble_holdNibble]

theorem receiveAll_pair_of_not_lt {s : State} (now : Time) (b : Byte) (hs : s.rx.haveStx = true)
    (he : s.rx.haveEtx = false) (hp : s.rx.phase = .hi) (hlt : ¬ s.rx.pos.toNat < s.rx.maxlen.toNat) :
    receiveAll now (pairBytes b) s = raise .overflow (joined b s) := by
  rw [receiveAll_pair now b hs hp,
    lowNibble_of_not_lt (s := holdNibble (hi4 b) s) _ he (mt BitVec.lt_def.mp hlt), joinNibble_holdNibble]

theorem pairBytes_dropLast (b : Byte) : (pairBytes b).dropLast = [encNib (hi4 b)] := rfl

/-- Settles O50: one pair with room is RX.PAY at the assembled byte. -/
theorem pairAppendsByte : Obligations.PairAppendsByte := by
  intro s b hm hs he hp hlt
  have hread := receiveAll_pair_of_lt s.now b hs he hp hlt
  have hmode : (receiveAll s.now (pairBytes b) s).mode = .recv := by rw [hread]; exact hm
  rw [exec_pair, ← List.append_nil (pairBytes b), feed_append hmode, feed_nil, hread, appendByte_eq]
  simp only [joined, ← hp]

/-! ## A start marker and whole pairs -/

/-- What the receiver has reached from `s0` after a start marker and the pairs of `q`, all of which fitted (R44 (i) to
(iii)). -/
structure Collected (now : Time) (s0 : State) (q : List Byte) (s : State) : Prop where
  mode : s.mode = .recv
  haveStx : s.rx.haveStx = true
  haveEtx : s.rx.haveEtx = false
  phase : s.rx.phase = .hi
  pos : s.rx.pos.toNat = q.length
  acc : s.rx.acc = crcSeq q
  t0 : s.rx.t0 = now
  maxlen : s.rx.maxlen = s0.rx.maxlen
  wf : s.out.wf = true
  first : s.out.firstBytes q.length = q
  rest : ∀ a, q.length ≤ a → s.out.read a = s0.out.read a

theorem Collected.start {s : State} (now : Time) (hm : s.mode = .recv) (hwf : s.out.wf = true) :
    Collected now s [] (startFrame now s) :=
  ⟨hm, rfl, rfl, rfl, rfl, rfl, rfl, rfl, hwf, rfl, fun _ _ => rfl⟩

section Collecting

variable {now : Time} {s0 s : State} {q : List Byte} (h : Collected now s0 q s)
include h

/-- One more pair that fits (R208). -/
theorem Collected.pair {b : Byte} (hlt : q.length < s0.rx.maxlen.toNat) :
    Collected now s0 (q ++ [b]) (receiveAll now (pairBytes b) s) := by
  have hpos : (s.rx.pos.toNat + 1) % 256 = q.length + 1 := by rw [h.pos]; omega
  rw [receiveAll_pair_of_lt now b h.haveStx h.haveEtx h.phase (by rwa [h.pos, h.maxlen]), appendByte_eq]
  refine ⟨h.mode, h.haveStx, h.haveEtx, rfl, ?_, ?_, h.t0, h.maxlen, ?_, ?_, fun a ha => ?_⟩
  · rw [List.length_append]
    exact hpos
  · rw [crcSeq_append, ← h.acc]
    rfl
  · exact Memory.write_wf b h.wf s.rx.pos.isLt
  · rw [List.length_append, List.length_singleton]
    calc (s.out.write s.rx.pos.toNat b).firstBytes (q.length + 1) = s.out.firstBytes q.length ++ [b] := by
          rw [h.pos, Memory.firstBytes_append b h.wf]
      _ = q ++ [b] := by rw [h.first]
  · rw [List.length_append, List.length_singleton] at ha
    calc (s.out.write s.rx.pos.toNat b).read a = s.out.read a := Memory.read_write_ne _ b (by rw [h.pos]; omega)
      _ = s0.out.read a := h.rest a (by omega)

/-- The pairs of a payload that fits. -/
theorem Collected.payload {p : List Byte} (hlen : q.length + p.length ≤ s0.rx.maxlen.toNat) :
    Collected now s0 (q ++ p) (receiveAll now (payloadBytes p) s) := by
  induction p generalizing q s with
  | nil => rwa [List.append_nil]
  | cons b p ih =>
    rw [List.length_cons] at hlen
    have hpair : Collected now s0 (q ++ [b]) (receiveAll now (pairBytes b) s) := h.pair (by omega)
    have hrest := ih hpair (by rw [List.length_append, List.length_singleton]; omega)
    rwa [List.append_assoc, List.singleton_append] at hrest

/-- A pair without room ends the command at its low code (R209). -/
theorem Collected.overflow (b : Byte) (hfull : s0.rx.maxlen.toNat = q.length) :
    receiveAll now (pairBytes b) s = raise .overflow (joined b s) :=
  receiveAll_pair_of_not_lt now b h.haveStx h.haveEtx h.phase (by rw [h.pos, h.maxlen]; omega)

end Collecting

/-- The payload `p` has been delivered into the OUT of `s0` (R215). -/
structure Delivered (now : Time) (s0 : State) (p : List Byte) (t : State) : Prop where
  mode : t.mode = .idle
  resOk : t.resOk = true
  resLen : t.resLen = BitVec.ofNat 8 p.length
  resCause : t.resCause = .none
  first : t.out.firstBytes p.length = p
  rest : ∀ a, p.length ≤ a → t.out.read a = s0.out.read a
  t0 : t.rx.t0 = now

/-- The two codes of the checksum with the end marker before them or between them (R210, R221): the marker sets its flag
whatever the nibble phase. -/
theorem Collected.checksum {now : Time} {s0 s : State} {p : List Byte} (h : Collected now s0 p s) :
    Delivered now s0 p
      (receiveByte (encNib (lo4 (crcSeq p))) now (endPayload (holdNibble (hi4 (crcSeq p)) s))) := by
  have hread : receiveByte (encNib (lo4 (crcSeq p))) now (endPayload (holdNibble (hi4 (crcSeq p)) s)) =
      checkSum (joined (crcSeq p) (endPayload s)) := by
    rw [receiveByte_lo (s := endPayload (holdNibble (hi4 (crcSeq p)) s)) _ now h.haveStx rfl,
      lowNibble_of_etx (s := endPayload (holdNibble (hi4 (crcSeq p)) s)) _ rfl]
    exact congrArg checkSum (joinNibble_holdNibble (crcSeq p) (endPayload s))
  have hlen : s.rx.pos = BitVec.ofNat 8 p.length := by rw [← h.pos, BitVec.ofNat_toNat, BitVec.setWidth_eq]
  have hsum : (joined (crcSeq p) (endPayload s)).rx.cur = (joined (crcSeq p) (endPayload s)).rx.acc := h.acc.symm
  rw [hread, checkSum, if_pos hsum]
  exact ⟨rfl, rfl, hlen, rfl, h.first, h.rest, h.t0⟩

/-! ## A frame that fits -/

/-- A frame is its last byte after what comes before. -/
theorem frameBytes_dropLast (p : List Byte) :
    (frameBytes p).dropLast = Config.stx :: (payloadBytes p ++ [Config.etx, encNib (hi4 (crcSeq p))]) ∧
      frameBytes p = (frameBytes p).dropLast ++ [encNib (lo4 (crcSeq p))] := by
  have hsplit : frameBytes p = (Config.stx :: (payloadBytes p ++ [Config.etx, encNib (hi4 (crcSeq p))])) ++
      [encNib (lo4 (crcSeq p))] := by simp [frameBytes_eq, frameWith_eq]
  have hinit : (frameBytes p).dropLast = Config.stx :: (payloadBytes p ++ [Config.etx, encNib (hi4 (crcSeq p))]) := by
    rw [hsplit, List.dropLast_concat]
  exact ⟨hinit, hinit ▸ hsplit⟩

section Fitting

variable {s : State} {p : List Byte} (now : Time) (hm : s.mode = .recv) (hwf : s.out.wf = true)
  (hlen : p.length ≤ s.rx.maxlen.toNat)
include hm hwf hlen

theorem collected_payload : Collected now s p (receiveAll now (payloadBytes p) (startFrame now s)) :=
  (Collected.start now hm hwf).payload (by rwa [List.length_nil, Nat.zero_add])

/-- The whole frame but its last byte: the end marker has set its flag and the checksum's high nibble is held. -/
theorem receiveAll_frame_dropLast :
    receiveAll now (frameBytes p).dropLast s =
      endPayload (holdNibble (hi4 (crcSeq p)) (receiveAll now (payloadBytes p) (startFrame now s))) := by
  have hcol := collected_payload now hm hwf hlen
  obtain ⟨hinit, -⟩ := frameBytes_dropLast p
  rw [hinit, receiveAll_cons, receiveByte_stx, receiveAll_append]
  generalize receiveAll now (payloadBytes p) (startFrame now s) = u at hcol ⊢
  rw [receiveAll_cons, receiveByte_etx now hcol.haveStx, receiveAll_cons, receiveAll_nil,
    receiveByte_hi (s := endPayload u) _ now hcol.haveStx hcol.phase]
  rfl

theorem mode_receiveAll_frame_dropLast : (receiveAll now (frameBytes p).dropLast s).mode = .recv := by
  rw [receiveAll_frame_dropLast now hm hwf hlen]
  exact (collected_payload now hm hwf hlen).mode

/-- A frame that fits delivers its payload, in every receiver state (R215). -/
theorem receiveAll_frame : Delivered now s p (receiveAll now (frameBytes p) s) := by
  obtain ⟨-, hsplit⟩ := frameBytes_dropLast p
  rw [hsplit, receiveAll_append, receiveAll_frame_dropLast now hm hwf hlen]
  exact (collected_payload now hm hwf hlen).checksum

end Fitting

/-- Settles O51: the whole frame is read, and nothing of it stays in the transport. -/
theorem frameDeliversPayload : Obligations.FrameDeliversPayload := by
  intro s p hm hwf hlen
  have hdel := receiveAll_frame s.now hm hwf hlen
  have hframe := receiveAll_readFrame s.now (frameBytes p) s
  have hfeed := feed_ending (rest := []) (mode_receiveAll_frame_dropLast s.now hm hwf hlen) hdel.mode
  rw [List.append_nil] at hfeed
  have hmax : p.length ≤ Config.maxLen := hlen.trans (Nat.le_of_lt_succ s.rx.maxlen.isLt)
  rw [exec_frame_of_le s hmax, hfeed]
  exact ⟨_, rfl, hdel.mode, hdel.resOk, hdel.resLen, hdel.resCause, hdel.first, hdel.rest, rfl, hframe.tx, hframe.pay,
    hdel.t0, hframe.maxlen, hframe.timeout⟩

/-! ## A frame that does not fit -/

/-- The bytes of a frame up to the low code of the payload byte `b` that follows the bytes `q` (R97). -/
def frameUpTo (q : List Byte) (b : Byte) : List Byte := Config.stx :: (payloadBytes q ++ pairBytes b)

theorem frameUpTo_length (q : List Byte) (b : Byte) : (frameUpTo q b).length = 2 * q.length + 3 := by
  rw [frameUpTo, List.length_cons, List.length_append, payloadBytes_length]
  rfl

theorem frameUpTo_dropLast (q : List Byte) (b : Byte) :
    (frameUpTo q b).dropLast = Config.stx :: (payloadBytes q ++ [encNib (hi4 b)]) := by
  have hne : pairBytes b ≠ [] := List.cons_ne_nil _ _
  rw [frameUpTo, List.dropLast_cons_of_ne_nil (List.append_ne_nil_of_right_ne_nil _ hne),
    List.dropLast_append_of_ne_nil hne, pairBytes_dropLast]

theorem frameWith_eq_frameUpTo (c b : Byte) (q p : List Byte) :
    frameWith c (q ++ b :: p) = frameUpTo q b ++ (frameWith c (q ++ b :: p)).drop (2 * q.length + 3) := by
  have hframe : frameWith c (q ++ b :: p) =
      frameUpTo q b ++ (payloadBytes p ++ [Config.etx, encNib (hi4 c), encNib (lo4 c)]) := by
    rw [frameWith_eq, payloadBytes_append, frameUpTo, payloadBytes_cons, pairBytes]
    simp only [List.cons_append, List.append_assoc, List.nil_append]
  rw [hframe, List.drop_left' (frameUpTo_length q b)]

/-- The first payload byte without room ends the command at its low code (R209). -/
theorem receiveAll_frameUpTo {s : State} {q : List Byte} (now : Time) (b : Byte) (hm : s.mode = .recv)
    (hwf : s.out.wf = true) (hfull : s.rx.maxlen.toNat = q.length) :
    receiveAll now (frameUpTo q b) s =
        raise .overflow (joined b (receiveAll now (payloadBytes q) (startFrame now s))) ∧
      (receiveAll now (frameUpTo q b).dropLast s).mode = .recv := by
  have hcol := collected_payload now hm hwf (Nat.le_of_eq hfull.symm)
  constructor
  · rw [frameUpTo, receiveAll_cons, receiveByte_stx, receiveAll_append]
    exact hcol.overflow b hfull
  · rw [frameUpTo_dropLast, receiveAll_cons, receiveByte_stx, receiveAll_append, receiveAll_cons,
      receiveByte_hi _ now hcol.haveStx hcol.phase]
    exact hcol.mode

/-- A frame that does not fit, whatever its checksum byte (R209). -/
theorem feed_frameWith_overflow (c : Byte) {s : State} {p : List Byte} (hm : s.mode = .recv) (hwf : s.out.wf = true)
    (hlen : s.rx.maxlen.toNat < p.length) :
    ∃ u, ReadFrame s u ∧ u.out.firstBytes s.rx.maxlen.toNat = p.take s.rx.maxlen.toNat ∧
      (∀ a, s.rx.maxlen.toNat ≤ a → u.out.read a = s.out.read a) ∧
      feed (frameWith c p) s = raise .overflow { u with
        env := { s.env with rxBytes := (frameWith c p).drop (2 * s.rx.maxlen.toNat + 3) ++ s.env.rxBytes } } := by
  obtain ⟨q, b, p', rfl, hfull⟩ : ∃ q b p', p = q ++ b :: p' ∧ s.rx.maxlen.toNat = q.length :=
    ⟨p.take s.rx.maxlen.toNat, p[s.rx.maxlen.toNat], p.drop (s.rx.maxlen.toNat + 1),
      by rw [← List.drop_eq_getElem_cons hlen, List.take_append_drop],
      by rw [List.length_take, Nat.min_eq_left (Nat.le_of_lt hlen)]⟩
  obtain ⟨hread, hrun⟩ := receiveAll_frameUpTo s.now b hm hwf hfull
  have hcol := collected_payload s.now hm hwf (Nat.le_of_eq hfull.symm)
  have hframe := receiveAll_readFrame s.now (frameUpTo q b) s
  have hfeed := feed_ending (rest := (frameWith c (q ++ b :: p')).drop (2 * q.length + 3)) hrun (by rw [hread]; rfl)
  rw [← frameWith_eq_frameUpTo, hread] at hfeed
  rw [hread] at hframe
  rw [hfull, List.take_left]
  exact ⟨joined b (receiveAll s.now (payloadBytes q) (startFrame s.now s)), { hframe with }, hcol.first, hcol.rest, hfeed⟩

/-- Settles O52: a frame of at most 255 bytes that does not fit. -/
theorem longFrameOverflows : Obligations.LongFrameOverflows := by
  intro s p hm hwf hlen hmax
  obtain ⟨u, -, hfirst, hrest, hfeed⟩ := feed_frameWith_overflow (crcSeq p) hm hwf hlen
  rw [exec_frame_of_le s hmax, frameBytes_eq, hfeed]
  exact ⟨_, rfl, rfl, rfl, rfl, rfl, hfirst, hrest, rfl⟩

/-- Settles O60: each row is its meaning with the operand as it stands; the frame overflows before its checksum. -/
theorem operandsOutsideRangeRun : Obligations.OperandsOutsideRangeRun := by
  intro s
  refine ⟨fun p hp => ⟨_, if_neg (Nat.not_le.mpr hp)⟩, fun hm => ⟨⟨_, if_pos (busy_iff.mpr hm)⟩, fun len => ?complete⟩,
    fun w => ?bad, fun hm hs => exec_rxSkip_of_idle _ hm hs, fun hm hs w _ => exec_rxBad_of_receiving hm hs w,
    fun p hp hm => ?unread, fun p hp hm hwf => ?overflow⟩
  case complete => rw [exec_complete_of_busy false len hm, complete_eq_succeeded]
  case bad => rw [exec_bad, exec_decodeWire_eq_feed]
  case unread =>
    obtain ⟨c, hexec⟩ := exec_frame_of_lt s hp
    exact ⟨c, by rw [hexec, feed_other hm]; rfl⟩
  case overflow =>
    obtain ⟨c, hexec⟩ := exec_frame_of_lt s hp
    have hlen : s.rx.maxlen.toNat < p.length := Nat.lt_of_lt_of_le s.rx.maxlen.isLt hp
    obtain ⟨u, hframe, hfirst, hrest, hfeed⟩ := feed_frameWith_overflow c hm hwf hlen
    rw [hfeed] at hexec
    exact ⟨_, c, hexec, rfl, rfl, rfl, rfl, hfirst, hrest, rfl, hframe.tx, hframe.pay, hframe.unitOut,
      congrArg (· + 1) hframe.freeDraws⟩

/-! ## Runs of one byte a step -/

/-- A run of the receiving block whose steps all find a byte, from the state as it is. -/
theorem run_receiveAll_self {s : State} {ws rest : List Byte} (hbytes : s.env.rxBytes = ws ++ rest)
    (hready : readySteps ws.length s.env.ticks s.env.rxAvail)
    (hrun : (receiveAll s.now ws.dropLast s).mode = .recv) :
    ∃ t0 e, Claims.run ws.length s = .next (atClock t0 e (receiveAll s.now ws s)) ∧ e.rxBytes = rest ∧
      e.host = s.env.host := by
  obtain ⟨t0, e, h, hb, hh, -⟩ :=
    run_receiveAll s.now (t0 := s.rx.t0) (e := s.env) (s := s) hbytes hready fun _ => hrun
  exact ⟨t0, e, h, hb, hh⟩

/-- A receiving block in Idle reads noise, which changes nothing, and then a frame that fits (R215). -/
theorem run_noise_frame {s : State} {g p rest : List Byte} (hm : s.mode = .recv) (hs : s.rx.haveStx = false)
    (hwf : s.out.wf = true) (hlen : p.length ≤ s.rx.maxlen.toNat) (hnoise : ∀ w ∈ g, w ≠ Config.stx)
    (hbytes : s.env.rxBytes = g ++ frameBytes p ++ rest)
    (hready : readySteps (g.length + (2 * p.length + 4)) s.env.ticks s.env.rxAvail) :
    ∃ t0 e, Claims.run (g.length + (2 * p.length + 4)) s = .next (atClock t0 e (receiveAll s.now (frameBytes p) s)) ∧
      e.rxBytes = rest ∧ e.host = s.env.host := by
  have hcount : g.length + (2 * p.length + 4) = (g ++ frameBytes p).length := by
    rw [List.length_append, frameBytes_length]
  have hskip : ∀ ws, receiveAll s.now (g ++ ws) s = receiveAll s.now ws s := fun ws => by
    rw [receiveAll_append, receiveAll_noise hs hnoise]
  have hne : frameBytes p ≠ [] := List.ne_nil_of_length_pos (by rw [frameBytes_length]; omega)
  rw [hcount] at hready ⊢
  rw [← hskip]
  refine run_receiveAll_self hbytes hready ?_
  rw [List.dropLast_append_of_ne_nil hne, hskip]
  exact mode_receiveAll_frame_dropLast s.now hm hwf hlen

/-- Settles O53: the acceptance, then noise and the frame. -/
theorem recvDeliversFrame : Obligations.RecvDeliversFrame := by
  intro s max timeout acts d ts g p rest hm hwf hh ht hbytes hnoise hlen hready
  have hstart := step_idle_recv hm hh ht
  generalize hu : recvStart max timeout { s with env := { s.env with
    clock := s.env.clock + d, ticks := ts, host := acts } } = u at hstart
  obtain ⟨humode, hustx, humax, huout, hupay, hutx, huenv⟩ : u.mode = .recv ∧ u.rx.haveStx = false ∧
      u.rx.maxlen = max ∧ u.out = s.out ∧ u.pay = s.pay ∧ u.tx = s.tx ∧
      u.env = { s.env with clock := s.env.clock + d, ticks := ts, host := acts } := by
    rw [← hu]
    exact ⟨rfl, rfl, rfl, rfl, rfl, rfl, rfl⟩
  rw [← huout] at hwf
  rw [← humax] at hlen
  obtain ⟨t0, e, hrun, hrest, hhost⟩ := run_noise_frame (s := u) humode hustx hwf hlen hnoise
    (by rw [huenv]; exact hbytes) (by rw [huenv]; exact hready)
  have hdel := receiveAll_frame u.now humode hwf hlen
  have hframe := receiveAll_readFrame u.now (frameBytes p) u
  refine ⟨atClock t0 e (receiveAll u.now (frameBytes p) u), ?_, hdel.mode, hdel.resOk, hdel.resLen, hdel.resCause,
    hdel.first, huout ▸ hdel.rest, hrest, ?_, hframe.pay.trans hupay, hframe.tx.trans hutx⟩
  · rw [Nat.add_comm, run_next _ hstart, hrun]
  · rw [huenv] at hhost
    exact hhost

/-! ## A flipped bit -/

/-- No nibble code is one bit away from another wire byte that is not BAD (30_encoding.md section 6). -/
theorem classify_flipped (n : Nibble) {k : Nat} (hk : k < 8) : classify (encNib n ^^^ (1 <<< k)) = .bad := by
  have hall : ∀ (n : Nibble) (k : Fin 8), classify (encNib n ^^^ (1 <<< k.val)) = .bad := by decide
  exact hall n ⟨k, hk⟩

theorem encNib_of_mem_payloadBytes {p : List Byte} {w : Byte} (h : w ∈ payloadBytes p) : ∃ n, w = encNib n := by
  obtain ⟨b, -, hb⟩ := List.mem_flatMap.mp h
  rw [pairBytes, encByte, List.mem_pair] at hb
  obtain rfl | rfl := hb
  · exact ⟨_, rfl⟩
  · exact ⟨_, rfl⟩

/-- Every byte of a frame but its two markers is a nibble code (30_encoding.md R97). -/
theorem encNib_of_frameBytes {p : List Byte} {j : Nat} {w : Byte} (hw : (frameBytes p)[j]? = some w) (h0 : j ≠ 0)
    (h1 : j ≠ 2 * p.length + 1) : ∃ n, w = encNib n := by
  by_cases hlt : j < 2 * p.length + 1
  · obtain ⟨i, rfl⟩ : ∃ i, j = i + 1 := ⟨j - 1, by omega⟩
    rw [frameBytes_eq, frameWith_eq, List.getElem?_cons_succ,
      List.getElem?_append_left (by rw [payloadBytes_length]; omega)] at hw
    exact encNib_of_mem_payloadBytes (List.mem_of_getElem? hw)
  · obtain ⟨i, rfl⟩ : ∃ i, j = 1 + 2 * p.length + (i + 1) := ⟨j - (2 * p.length + 2), by omega⟩
    rw [frameBytes_getElem?_tail, List.getElem?_cons_succ] at hw
    have hmem := List.mem_of_getElem? hw
    rw [List.mem_pair] at hmem
    obtain rfl | rfl := hmem
    · exact ⟨_, rfl⟩
    · exact ⟨_, rfl⟩

/-- Inside a frame that fits the block receives, and the start marker has been read. -/
theorem receiveAll_frame_take {s : State} {p : List Byte} {j : Nat} (now : Time) (hm : s.mode = .recv)
    (hwf : s.out.wf = true) (hlen : p.length ≤ s.rx.maxlen.toNat) (h0 : j ≠ 0) (hj : j < (frameBytes p).length) :
    (receiveAll now ((frameBytes p).take j) s).mode = .recv ∧
      (receiveAll now ((frameBytes p).take j) s).rx.haveStx = true := by
  constructor
  · have hrun := mode_receiveAll_frame_dropLast now hm hwf hlen
    have hsplit : (frameBytes p).dropLast = (frameBytes p).take j ++ (frameBytes p).dropLast.drop j := by
      conv => lhs; rw [← List.take_append_drop j (frameBytes p).dropLast]
      rw [List.dropLast_eq_take, List.take_take, Nat.min_eq_left (by omega)]
    rw [hsplit, receiveAll_append] at hrun
    exact mode_recv_of_receiveAll hrun
  · obtain ⟨i, rfl⟩ : ∃ i, j = i + 1 := ⟨j - 1, by omega⟩
    rw [frameBytes_eq, frameWith_eq, List.take_succ_cons, receiveAll_cons, receiveByte_stx]
    exact receiveAll_haveStx rfl

/-- Settles O54: the flipped code is BAD, and a BAD byte inside a frame ends the command. -/
theorem flippedBitEndsCorrupt : Obligations.FlippedBitEndsCorrupt := by
  intro s p rest j k w hm _ hwf hlen h0 h1 hw hk hbytes hready
  obtain ⟨hj, -⟩ := List.getElem?_eq_some_iff.mp hw
  obtain ⟨n, rfl⟩ := encNib_of_frameBytes hw h0 h1
  obtain ⟨hmode, hstx⟩ := receiveAll_frame_take s.now hm hwf hlen h0 hj
  have hcount : ((frameBytes p).take j ++ [encNib n ^^^ (1 <<< k)]).length = j + 1 := by
    rw [List.length_append, List.length_take, Nat.min_eq_left (Nat.le_of_lt hj), List.length_singleton]
  have hsplit : (frameBytes p).set j (encNib n ^^^ (1 <<< k)) ++ rest =
      ((frameBytes p).take j ++ [encNib n ^^^ (1 <<< k)]) ++ ((frameBytes p).drop (j + 1) ++ rest) := by
    rw [List.set_eq_take_append_cons_drop, if_pos hj]
    simp only [List.append_assoc, List.cons_append, List.nil_append]
  obtain ⟨t0, e, hrun, hrest, -⟩ := run_receiveAll_self (hbytes.trans hsplit) (by rwa [hcount])
    (by rwa [List.dropLast_concat])
  rw [hcount, receiveAll_append, receiveAll_cons, receiveAll_nil,
    receiveByte_bad _ (classify_flipped n hk) hstx] at hrun
  exact ⟨_, hrun, rfl, rfl, rfl, rfl, hrest⟩

/-! ## The end marker off the pair boundary -/

/-- Repeated end markers set their flag once (R206). -/
theorem receiveAll_replicate_etx {s : State} (now : Time) (m : Nat) (hs : s.rx.haveStx = true) :
    receiveAll now (List.replicate (m + 1) Config.etx) s = endPayload s := by
  induction m generalizing s with
  | zero => rw [List.replicate_one, receiveAll_cons, receiveByte_etx now hs, receiveAll_nil]
  | succ m ih => rw [List.replicate_succ, receiveAll_cons, receiveByte_etx now hs, ih (s := endPayload s) hs]; rfl

/-- Settles O55: with the end markers between its two codes the checksum is compared as in a frame. -/
theorem unalignedEndMarkerAccepted : Obligations.UnalignedEndMarkerAccepted := by
  rintro s p rest m ws hm hwf hlen rfl hbytes hready
  have hcol := collected_payload s.now hm hwf hlen
  have hinit : receiveAll s.now
      ([0x02] ++ payloadBytes p ++ [encNib (hi4 (crcSeq p))] ++ List.replicate (m + 1) 0x03) s =
        endPayload (holdNibble (hi4 (crcSeq p)) (receiveAll s.now (payloadBytes p) (startFrame s.now s))) := by
    have hstx : receiveAll s.now [0x02] s = startFrame s.now s := receiveByte_stx s.now s
    rw [receiveAll_append, receiveAll_append, receiveAll_append, hstx]
    generalize receiveAll s.now (payloadBytes p) (startFrame s.now s) = u at hcol ⊢
    rw [receiveAll_cons, receiveAll_nil, receiveByte_hi _ s.now hcol.haveStx hcol.phase]
    exact receiveAll_replicate_etx s.now m hcol.haveStx
  have hdel := hcol.checksum
  obtain ⟨t0, e, hrun, hrest, -⟩ := run_receiveAll_self hbytes hready
    (by rw [List.dropLast_concat, hinit]; exact hcol.mode)
  rw [receiveAll_append, hinit, receiveAll_cons, receiveAll_nil] at hrun
  exact ⟨_, hrun, hdel.mode, hdel.resOk, hdel.resLen, hdel.resCause, hdel.first, hrest⟩

end Sys2Proof.Machine
end

section
/-!
Silence (43_frame_receiver.md R217): steps that find no byte up to the deadline, and the one that passes it. The
statement O56.
-/

namespace Sys2Proof.Machine

open Claims

/-- The elapsed time is exact as long as it is below the clock's wrap (R219, R318). -/
theorem elapsed_toNat {c t0 : Nat} (hle : t0 ≤ c) (hlt : c - t0 < 2 ^ timeW) :
    (BitVec.ofNat timeW c - BitVec.ofNat timeW t0).toNat = c - t0 := by
  have hwrap : 2 ^ timeW = 4294967296 := rfl
  rw [BitVec.toNat_sub, BitVec.toNat_ofNat, BitVec.toNat_ofNat]
  rw [hwrap] at hlt ⊢
  omega

section Silent

variable {s : State} {t0 d : Nat} {ts cs : List Nat} (hm : s.mode = .recv) (ht0 : s.rx.t0 = BitVec.ofNat timeW t0)
  (hle : t0 ≤ s.env.clock) (ht : s.env.ticks = d :: ts) (hc : s.env.rxAvail = 0 :: cs)
include hm ht0 hle ht hc

/-- A step without a byte, with the elapsed time as a number (R203, R204). -/
theorem step_silent (hlt : s.env.clock + d - t0 < 2 ^ timeW) :
    step s = .next (if s.rx.timeout.toNat < s.env.clock + d - t0 then failed .timeout (polledNothing d ts cs s)
      else polledNothing d ts cs s) := by
  have helapsed : ((polledNothing d ts cs s).now - (polledNothing d ts cs s).rx.t0).toNat = s.env.clock + d - t0 :=
    (congrArg (fun x => (BitVec.ofNat timeW (s.env.clock + d) - x).toNat) ht0).trans (elapsed_toNat (by omega) hlt)
  rw [step_recv_silent hm ht hc, receiveNothing_eq, helapsed]
  rfl

theorem step_silent_waits (hwait : s.env.clock + d - t0 ≤ s.rx.timeout.toNat) :
    step s = .next (polledNothing d ts cs s) := by
  rw [step_silent hm ht0 hle ht hc (Nat.lt_of_le_of_lt hwait s.rx.timeout.isLt), if_neg (Nat.not_lt.mpr hwait)]

theorem step_silent_ends (hlate : s.rx.timeout.toNat < s.env.clock + d - t0)
    (hlt : s.env.clock + d - t0 < 2 ^ timeW) : step s = .next (failed .timeout (polledNothing d ts cs s)) := by
  rw [step_silent hm ht0 hle ht hc hlt, if_pos hlate]

end Silent

/-- A run of steps that find no byte, up to the deadline: only the clock and the answers move (R217). -/
theorem run_silent_waits {s : State} {t0 : Nat} {ds ts cs : List Nat} (hm : s.mode = .recv)
    (ht0 : s.rx.t0 = BitVec.ofNat timeW t0) (hle : t0 ≤ s.env.clock) (ht : s.env.ticks = ds ++ ts)
    (hc : s.env.rxAvail = List.replicate ds.length 0 ++ cs)
    (hwait : s.env.clock + ds.sum - t0 ≤ s.rx.timeout.toNat) :
    Claims.run ds.length s = .next (polledNothing ds.sum ts cs s) := by
  induction ds generalizing s with
  | nil =>
    rw [List.nil_append] at ht
    rw [List.length_nil, List.replicate_zero, List.nil_append] at hc
    rw [List.length_nil, run_zero, List.sum_nil, polledNothing, ← ht, ← hc, Nat.add_zero]
  | cons d ds ih =>
    rw [List.sum_cons, ← Nat.add_assoc] at hwait
    have hstep : step s = _ := step_silent_waits hm ht0 hle ht hc (by omega)
    have hrest := ih (s := polledNothing d (ds ++ ts) (List.replicate ds.length 0 ++ cs) s) hm ht0
      (Nat.le_add_right_of_le hle) rfl rfl hwait
    have htotal : polledNothing ds.sum ts cs (polledNothing d (ds ++ ts) (List.replicate ds.length 0 ++ cs) s) =
        polledNothing (d :: ds).sum ts cs s := by
      rw [List.sum_cons, polledNothing, polledNothing, polledNothing, ← Nat.add_assoc]
    rw [List.length_cons, run_next _ hstep, ← htotal]
    exact hrest

/-- Settles O56: the waiting steps, then the step past the deadline. -/
theorem silenceTimesOut : Obligations.SilenceTimesOut := by
  intro s t0 d ds ts cs hm ht0 hle ht hc hwait hlate hlt
  rw [List.replicate_succ', List.append_assoc] at hc
  have hrun := run_silent_waits hm ht0 hle ht hc hwait
  have hend : step (polledNothing ds.sum (d :: ts) ([0] ++ cs) s) = _ :=
    step_silent_ends (s := polledNothing ds.sum (d :: ts) ([0] ++ cs) s) hm ht0 (Nat.le_add_right_of_le hle) rfl rfl
      hlate hlt
  refine ⟨⟨_, hrun, hm, rfl⟩,
    failed .timeout (polledNothing d ts cs (polledNothing ds.sum (d :: ts) ([0] ++ cs) s)), ?_, rfl, rfl, rfl, rfl, rfl,
    rfl⟩
  rw [run_add _ 1 hrun]
  exact run_next 0 hend

end Sys2Proof.Machine
end
